-- ==== Sys2Proof/Word.lean ====
section
/-! DEFINITION. The widths the spec computes with (00_scope.md R22): `u8` and `u16`. -/

namespace Sys2Proof

/-- `u8`: an unsigned 8-bit value (R22). -/
abbrev Byte := BitVec 8

/-- `u16`: an unsigned 16-bit value (R22). -/
abbrev Half := BitVec 16

/-- A 6-bit command code, `command[5:0]` (30_encoding.md R102). -/
abbrev Code := BitVec 6

end Sys2Proof
end

