-- ==== Sys2Proof/Config.lean ====
section
/-! DEFINITION. The implementation parameters of 00_scope.md §3 (R9–R21): "every parameter below is a value
the model takes as an argument". They form one record, carried unchanged in `State.cfg`, so that a statement
about every state is a statement about every build. -/

namespace Sys2Proof

/-- The build's parameters. The ranges the types do not give are `Config.wf` (WellFormed.lean). -/
structure Config where
  /-- PAGE_SIZE, bytes per flash page (R9). -/
  pageSize : Nat
  /-- PAGE_SIZE_CLASS, the 2-bit code IDENTIFY reports (R10). -/
  pageSizeClass : BitVec 2
  /-- MAX_PAGES, the writable pages, counted from page 0 (R11). -/
  maxPages : Half
  /-- FLASH_PAGES, all pages of program memory (R12). -/
  flashPages : Nat
  /-- READ_FLASH_PAGE_LIMIT, the exclusive bound of READ_FLASH's page (R13). -/
  readFlashPageLimit : Nat
  /-- EEPROM_SIZE in bytes (R14). -/
  eepromSize : Nat
  /-- MULTICAST_ADDR (R15). -/
  multicastAddr : Byte
  /-- DEVICE_TYPE (R16). -/
  deviceType : BitVec 4
  /-- PROTOCOL_VERSION (R16). -/
  protocolVersion : BitVec 4
  /-- BUILD_BOARD_ID (R17). -/
  buildBoardId : Byte
  /-- OPT_READ_FLASH and the six other optional commands (R19). -/
  optReadFlash : Bool
  optGetFusebits : Bool
  optChipErase : Bool
  optReadEeprom : Bool
  optWriteEeprom : Bool
  optSetBoardId : Bool
  optSetBitrate : Bool
  /-- GRACE_PERIOD: named by R20, read by no rule. -/
  gracePeriod : Nat
  /-- START_APP_DELAY: named by R20, read by no rule. -/
  startAppDelay : Nat
  /-- RX_DEPTH, the frames `rxq` can hold (R20, R50). -/
  rxDepth : Nat
  /-- TX_SLOTS, the frames `txq` can hold (R20, R51). -/
  txSlots : Nat
  /-- ERASED_BYTE (R21; its value in `Config.reference` is PRESUMED, notes/assumptions/5.md). -/
  erasedByte : Byte
  deriving DecidableEq, Repr

/-- CHUNKS = PAGE_SIZE / 4, the 4-byte slots of a page (R9). -/
def Config.chunks (c : Config) : Nat := c.pageSize / 4

/-- BITRATE_CODES (R18). -/
def bitrateCodes : Nat := 8

/-- The example configuration of 95_test_vectors.md §0, for `State.reset` only (DESIGN CHOICE, notes/assumptions/1.md,
unsafe: a claim about the machine must hold for every `Config`). BUILD_BOARD_ID, GRACE_PERIOD, START_APP_DELAY,
RX_DEPTH and TX_SLOTS, to which §0 gives no number, are named here. -/
def Config.reference : Config where
  pageSize := 128
  pageSizeClass := 2
  maxPages := 96
  flashPages := 128
  readFlashPageLimit := 128
  eepromSize := 512
  multicastAddr := 0xFF
  deviceType := 1
  protocolVersion := 2
  buildBoardId := 0
  optReadFlash := true
  optGetFusebits := true
  optChipErase := true
  optReadEeprom := true
  optWriteEeprom := true
  optSetBoardId := true
  optSetBitrate := true
  gracePeriod := 0
  startAppDelay := 0
  rxDepth := 16
  txSlots := 16
  erasedByte := 0xFF

end Sys2Proof
end

