-- ==== Sys2Proof/Syntax.lean ====
section
/-! DEFINITION. The frames as the receive port delivers them, and the instructions they are: one constructor of
`Instr` per row of spec/opcode_table.json. -/

namespace Sys2Proof

/-- A frame as delivered by the receive port: its bytes, and `payload_length` beside them (30_encoding.md R100, R101). -/
structure RxFrame where
  bytes : List Byte
  payloadLength : Nat
  deriving DecidableEq, Repr

/-- Why a delivery is no frame (R101; 93_implementation_defined.md: "refuse: not representable at the port"). -/
inductive Malformed where
  /-- fewer than the 4 header bytes -/
  | shortHeader
  /-- a delivered length above 4 -/
  | payloadTooLong
  /-- the bytes are not `4 + payload_length` -/
  | lengthMismatch
  deriving DecidableEq, Repr

/-- The operand fields of a frame: everything but the command byte (R100: A, N, G:Q and P). -/
structure Fields where
  /-- byte 0, `sender_address`: the addressed board -/
  address : Byte
  /-- byte 2, `message_number` -/
  number : Byte
  /-- byte 3, `chunk_counter` (G = bit 7, Q = bits 6:0); read by DATA alone -/
  chunkCounter : Byte
  /-- the payload bytes, at most 4 -/
  payload : List Byte
  deriving DecidableEq, Repr

/-- The instructions: the twelve commands of R104, the requests with an unassigned code (R230), and the frames
of a kind that is not REQUEST (R133). -/
inductive Instr where
  | noOperation (f : Fields)
  | identify (f : Fields)
  | setAddress (f : Fields)
  | data (f : Fields)
  | startApp (f : Fields)
  | readFlash (f : Fields)
  | getFusebits (f : Fields)
  | chipErase (f : Fields)
  | readEeprom (f : Fields)
  | writeEeprom (f : Fields)
  | setBoardId (f : Fields)
  | setBitrate (f : Fields)
  | unrecognizedRequest (code : Code) (f : Fields)
  | ignoredKindSuccess (code : Code) (f : Fields)
  | ignoredKindError (code : Code) (f : Fields)
  | ignoredKindWrongNumber (code : Code) (f : Fields)
  deriving DecidableEq, Repr

/-- The operand fields an instruction carries. -/
def Instr.fields : Instr → Fields
  | .noOperation f | .identify f | .setAddress f | .data f | .startApp f | .readFlash f
  | .getFusebits f | .chipErase f | .readEeprom f | .writeEeprom f | .setBoardId f | .setBitrate f
  | .unrecognizedRequest _ f | .ignoredKindSuccess _ f | .ignoredKindError _ f
  | .ignoredKindWrongNumber _ f => f

end Sys2Proof
end

