-- ==== Sys2Proof/WellFormed.lean ====
section
/-! DEFINITION. What a well-formed frame, instruction and configuration are. -/

namespace Sys2Proof

/-- A payload has 0 to 4 bytes (30_encoding.md R100). -/
def Fields.wf (f : Fields) : Bool := decide (f.payload.length ≤ 4)

/-- A well-formed instruction: at most 4 payload bytes, and an unrecognised request carries an unassigned code,
12 to 63 (R104, R110). -/
def Instr.wf : Instr → Bool
  | .noOperation f | .identify f | .setAddress f | .data f | .startApp f | .readFlash f
  | .getFusebits f | .chipErase f | .readEeprom f | .writeEeprom f | .setBoardId f | .setBitrate f
  | .ignoredKindSuccess _ f | .ignoredKindError _ f | .ignoredKindWrongNumber _ f => f.wf
  | .unrecognizedRequest c f => decide (12 ≤ c.toNat) && f.wf

/-- A delivery that is a frame: four header bytes, the delivered number of payload bytes, at most 4 (R101). -/
def RxFrame.wf (d : RxFrame) : Bool :=
  decide (d.payloadLength ≤ 4) && decide (d.bytes.length = 4 + d.payloadLength)

/-- The constraints 00_scope.md §3 puts on the parameters: PAGE_SIZE a positive multiple of 4 with class 2 at
128 (R9, R10), MAX_PAGES ≤ READ_FLASH_PAGE_LIMIT ≤ FLASH_PAGES (R11–R13), EEPROM_SIZE ≤ 65536 (R14), and at
least one receive and one transmit slot (R20). CHUNKS fits `u16` because `buffer_offset : u16` reaches CHUNKS
(R34; DEDUCED, notes/assumptions/13.md). -/
abbrev Config.wf (c : Config) : Prop :=
  0 < c.pageSize ∧ c.pageSize % 4 = 0 ∧ c.chunks ≤ 65535 ∧
  (c.pageSize = 128 → c.pageSizeClass = 2) ∧
  c.maxPages.toNat ≤ c.readFlashPageLimit ∧ c.readFlashPageLimit ≤ c.flashPages ∧
  c.eepromSize ≤ 65536 ∧ 1 ≤ c.rxDepth ∧ 1 ≤ c.txSlots

end Sys2Proof
end

