-- ==== Sys2Proof/Decode.lean ====
section
/-! DEFINITION. The frame decoder, total on any delivered bytes, and the encoder beside it (30_encoding.md). -/

namespace Sys2Proof

/-- `kind = command[7:6]` (R102). -/
def kindOf (command : Byte) : BitVec 2 := command.extractLsb' 6 2

/-- `code = command[5:0]` (R102). -/
def codeOf (command : Byte) : Code := command.extractLsb' 0 6

/-- The command byte of a kind and a code (R102). -/
def commandByte (kind : BitVec 2) (code : Code) : Byte := kind ++ code

/-- The command codes of R104; every other code of a REQUEST is unassigned (R110). -/
def decodeRequest (code : Code) (f : Fields) : Instr :=
  match code.toNat with
  | 0 => .noOperation f
  | 1 => .identify f
  | 2 => .setAddress f
  | 3 => .data f
  | 4 => .startApp f
  | 5 => .readFlash f
  | 6 => .getFusebits f
  | 7 => .chipErase f
  | 8 => .readEeprom f
  | 9 => .writeEeprom f
  | 10 => .setBoardId f
  | 11 => .setBitrate f
  | _ => .unrecognizedRequest code f

/-- The command byte "is the only field that selects the operation" (R102, R103). -/
def decodeCommand (command : Byte) (f : Fields) : Instr :=
  match (kindOf command).toNat with
  | 0 => decodeRequest (codeOf command) f
  | 1 => .ignoredKindSuccess (codeOf command) f
  | 2 => .ignoredKindError (codeOf command) f
  | _ => .ignoredKindWrongNumber (codeOf command) f

/-- Decoding of a delivery: a 4-byte header, then exactly `payload_length` ≤ 4 payload bytes (R100, R101); anything
else is rejected by name. -/
def decode (d : RxFrame) : Except Malformed Instr :=
  match d.bytes with
  | address :: command :: number :: chunkCounter :: payload =>
    if 4 < d.payloadLength then .error .payloadTooLong
    else if payload.length = d.payloadLength then .ok (decodeCommand command ⟨address, number, chunkCounter, payload⟩)
    else .error .lengthMismatch
  | _ => .error .shortHeader

/-- The kind of the frame an instruction is (R103). -/
def Instr.kind : Instr → BitVec 2
  | .noOperation _ | .identify _ | .setAddress _ | .data _ | .startApp _ | .readFlash _
  | .getFusebits _ | .chipErase _ | .readEeprom _ | .writeEeprom _ | .setBoardId _ | .setBitrate _
  | .unrecognizedRequest _ _ => 0
  | .ignoredKindSuccess _ _ => 1
  | .ignoredKindError _ _ => 2
  | .ignoredKindWrongNumber _ _ => 3

/-- The command code of an instruction (R104). -/
def Instr.code : Instr → Code
  | .noOperation _ => 0
  | .identify _ => 1
  | .setAddress _ => 2
  | .data _ => 3
  | .startApp _ => 4
  | .readFlash _ => 5
  | .getFusebits _ => 6
  | .chipErase _ => 7
  | .readEeprom _ => 8
  | .writeEeprom _ => 9
  | .setBoardId _ => 10
  | .setBitrate _ => 11
  | .unrecognizedRequest c _ => c
  | .ignoredKindSuccess c _ => c
  | .ignoredKindError c _ => c
  | .ignoredKindWrongNumber c _ => c

/-- The frame of an instruction, as Transport delivers it (R100, R101). -/
def encode (i : Instr) : RxFrame :=
  ⟨i.fields.address :: commandByte i.kind i.code :: i.fields.number :: i.fields.chunkCounter :: i.fields.payload,
    i.fields.payload.length⟩

/-- The payload length R107 requires of a command (WRITE_EEPROM: its least), for `tableFrame` alone. -/
def requiredLength (command : Byte) : Nat :=
  match command.toNat with
  | 2 | 3 | 5 => 4
  | 8 | 9 => 3
  | 10 | 11 => 1
  | _ => 0

/-- Byte `k` of a number, byte 0 the least significant. -/
def byteAt (w k : Nat) : Byte := BitVec.ofNat 8 (w / 256 ^ k)

/-- A frame laid out from an opcode-table word. The table numbers the COMMAND byte (frame byte 1) as bits 7..0; bits
that follow it are the frame bytes that follow it: message number, chunk counter, payload. Frame byte 0 and every bit
from `nbits` up are 0, and the payload has the length R107 requires (DESIGN CHOICE, notes/assumptions/11.md). -/
def tableFrame (nbits w : Nat) : RxFrame :=
  let v := w % 2 ^ nbits
  let len := requiredLength (byteAt v 0)
  ⟨0 :: byteAt v 0 :: byteAt v 1 :: byteAt v 2 :: (List.range len).map (fun k => byteAt v (3 + k)), len⟩

/-- The instruction the decoder reads from an opcode-table word. -/
def decodeTableWord (nbits w : Nat) : Option Instr :=
  match decode (tableFrame nbits w) with
  | .ok i => some i
  | .error _ => none

end Sys2Proof
end

