-- ==== Sys2Proof/Machine/Operands.lean ====
section
/-! DEFINITION. The operand forms of the payloads (30_encoding.md R107), big-endian (20_memory.md R77). A handler
reads an operand only after its length check, so the value a missing byte would have is never read (R101). -/

namespace Sys2Proof.Machine

/-- `be16(h, l) = h * 256 + l` (00_scope.md R24). -/
def be16 (h l : Byte) : Half := h ++ l

/-- `hi(v) = v[15:8]` (R24). -/
def hi (v : Half) : Byte := v.extractLsb' 8 8

/-- `lo(v) = v[7:0]` (R24). -/
def lo (v : Half) : Byte := v.extractLsb' 0 8

/-- The two bytes of a u16 in frame order (R77). -/
def bytesOf (v : Half) : List Byte := [hi v, lo v]

/-- Payload byte `P[i]`; the default of a missing byte is never read (DEDUCED, notes/assumptions/19.md). -/
def payloadByte (p : List Byte) (i : Nat) : Byte := p.getD i 0

/-- `page = be16(P[0], P[1])` of SET_ADDRESS and READ_FLASH (R107). -/
def pageOf (p : List Byte) : Half := be16 (payloadByte p 0) (payloadByte p 1)

/-- `offset = be16(P[2], P[3])` of SET_ADDRESS and READ_FLASH, in 4-byte units (R107). -/
def offsetOf (p : List Byte) : Half := be16 (payloadByte p 2) (payloadByte p 3)

/-- `addr = be16(P[0], P[1])` of READ_EEPROM and WRITE_EEPROM (R107). -/
def addrOf (p : List Byte) : Half := be16 (payloadByte p 0) (payloadByte p 1)

/-- `count = P[2]` of READ_EEPROM (R107). -/
def countOf (p : List Byte) : Byte := payloadByte p 2

/-- `data = P[2..len)` of WRITE_EEPROM (R107). -/
def dataOf (p : List Byte) : List Byte := p.drop 2

/-- The byte address of slot `offset` of page `page`, exact (20_memory.md R71). -/
def slotAddress (pageSize page offset : Nat) : Nat := page * pageSize + offset * 4

end Sys2Proof.Machine
end

