-- ==== Sys2Proof/Machine/Flags.lean ====
section
/-! DEFINITION. The flag bits of a frame and the counters' arithmetic (10_state.md R48, 30_encoding.md R103, R105,
00_scope.md R29). No instruction sets a condition code (R48). -/

namespace Sys2Proof.Machine

/-- G, the start-of-group flag: `chunk_counter[7]` (R105). -/
def startOfGroup (chunkCounter : Byte) : Bool := chunkCounter.getLsbD 7

/-- Q, the countdown: `chunk_counter[6:0]`, zero-extended (R105, R163). -/
def countdown (chunkCounter : Byte) : Byte := chunkCounter &&& 0x7F

/-- `sat_dec(x) = if x = 0 then 0 else x − 1` (R29). -/
def satDec (x : Byte) : Byte := if x = 0 then 0 else x - 1

/-- The number the sequencer accepts next: `(msg + 1) mod 256` (40_frame_validator.md R134). -/
def nextNumber (msg : Byte) : Byte := msg + 1

/-- The reply kinds as byte values (R103). -/
def kindSuccess : Byte := 0x40
def kindError : Byte := 0x80
def kindWrongNumber : Byte := 0xC0

/-- The command byte of a reply, `kind | code` (00_scope.md R28). -/
def replyCommand (kind : Byte) (code : Code) : Byte := kind ||| code.zeroExtend 8

/-- The board address latched at reset: 0xFF in the slot means "unset" (10_state.md R37). -/
def latchBoard (slotBoard buildBoardId : Byte) : Byte :=
  if slotBoard = 0xFF then buildBoardId else slotBoard

end Sys2Proof.Machine
end

