-- ==== Sys2Proof/Machine/State.lean ====
section
/-! DEFINITION. The state of the BLPSM (10_state.md), the effects it issues (00_scope.md R27), the moves of its
environment, the reasons a step can stop, and the state after reset (70_reset_and_hazards.md R290). -/

namespace Sys2Proof.Machine

/-- The bytes of an address space: (address, byte) pairs in the canonical form `Memory.wf` (Ops.lean). -/
abbrev Memory := List Host.Cell

/-- `phase` (R32). -/
inductive Phase where
  | idle
  | collectingPage
  deriving DecidableEq, Repr

/-- `sup`, the boot supervisor's state (R38). -/
inductive Supervisor where
  | waitingForFirstFrame
  | active
  | runningApplication
  deriving DecidableEq, Repr

/-- `timer`, the one-shot grace timer (R39). -/
inductive Timer where
  | armed
  | stopped
  | expired
  deriving DecidableEq, Repr

/-- `ctl`, the control state (R40). -/
inductive Control where
  | poll
  | exec
  | halt
  deriving DecidableEq, Repr

/-- The two configuration slots (R54). -/
inductive CfgSlot where
  | board
  | bitrate
  deriving DecidableEq, Repr

/-- An external operation the BLPSM issues (00_scope.md R27). -/
inductive Effect where
  | send (command : Byte) (payload : List Byte)
  | flashErase (page : Nat)
  | flashWrite (page : Nat) (bytes : List Byte)
  | rwwEnable
  | eepromWrite (addr : Nat) (bytes : List Byte)
  | cfgWrite (slot : CfgSlot) (value : Byte)
  | indicatorToggle
  | indicatorOff
  | jump
  deriving DecidableEq, Repr

/-- What the BLPSM hands to the transmit port: a command byte and a payload (R51). -/
structure Reply where
  command : Byte
  payload : List Byte
  deriving DecidableEq, Repr

/-- The device lock and fuse bytes, 4 and never changing (R55, R59). -/
structure FuseBytes where
  b0 : Byte
  b1 : Byte
  b2 : Byte
  b3 : Byte
  deriving DecidableEq, Repr

/-- One move of the environment or of the BLPSM; the agents "interleave freely" (60_exceptions.md R272). -/
inductive Event where
  /-- the BLPSM takes the step its control state enables (R130, R300) -/
  | run
  /-- the grace timer runs out (43_boot_supervisor.md R243) -/
  | expire
  /-- Transport delivers a frame (70_reset_and_hazards.md R304a) -/
  | arrive (frame : RxFrame)
  /-- Transport puts the head of `txq` on the bus (R304b) -/
  | transmit
  /-- a new power cycle; the bytes are the draw for `page_buffer`, whose reset value is unspecified (R290, R35) -/
  | powerCycle (pageBuffer : List Byte)
  deriving DecidableEq, Repr

/-- Everything the spec gives the machine: the registers of R30, the queues of the ports (R50, R51), the memories
behind the ports (R59), and the build's parameters. -/
structure State where
  /-- the build's parameters (00_scope.md R9–R21); no step changes them -/
  cfg : Config
  /-- `msg`, the number of the last accepted request (R31) -/
  msg : Byte
  phase : Phase
  /-- `target_page` (R33) -/
  targetPage : Half
  /-- `buffer_offset`, in 4-byte slots (R34) -/
  bufferOffset : Half
  /-- `page_buffer`, the space PB (R35, 20_memory.md R70) -/
  pageBuffer : Memory
  /-- `chunk`, the countdown of the current group (R36) -/
  chunk : Byte
  /-- `board`, latched at reset (R37) -/
  board : Byte
  sup : Supervisor
  timer : Timer
  ctl : Control
  /-- `fx`, the effects still to perform (R42) -/
  fx : List Effect
  /-- the receive FIFO, head first (R50) -/
  rxq : List RxFrame
  /-- the transmit queue, head first (R51) -/
  txq : List Reply
  /-- program memory, the space PM (R59, 20_memory.md R71) -/
  pm : Memory
  /-- EEPROM, the space EE (R59, 20_memory.md R72) -/
  ee : Memory
  /-- `slot_board` of the configuration store (R54) -/
  slotBoard : Byte
  /-- `slot_bitrate` of the configuration store (R54) -/
  slotBitrate : Byte
  /-- the space FUSE (R55) -/
  fuse : FuseBytes
  /-- the MODEL's own field: the environment's coming moves, the next one first; an empty list means `run`
  (DESIGN CHOICE, notes/assumptions/6.md) -/
  events : List Event
  deriving DecidableEq, Repr

/-- The spaces whose addresses can be out of range. -/
inductive Space where
  | pm
  | ee
  deriving DecidableEq, Repr

/-- Why the machine stops. -/
inductive Fault where
  /-- Raised by `step` when the BLPSM is to move at HALT: "from HALT there is no step" (R41, R246). SAFE: the run has
  ended (R320), and the machine claims nothing beyond it (DESIGN CHOICE, notes/assumptions/8.md). -/
  | halted
  /-- Raised by the accessors of PM and EE at an address outside the space (R59). SAFE: the spec gives no byte there;
  no state that meets `State.Inv` reaches it. -/
  | noSuchAddress (space : Space) (address : Nat)
  deriving DecidableEq, Repr

/-- Why a step has no meaning. -/
inductive Refusal where
  /-- Raised by `exec`'s arm of an instruction without a meaning; no arm of this model raises it. SAFE. -/
  | notModelled (mnemonic : String)
  /-- Raised by `step` for a delivery that is no frame, which the receive port cannot represent (30_encoding.md R101;
  93_implementation_defined.md: "refuse"). SAFE: nothing is claimed about it (notes/assumptions/9.md). -/
  | malformedFrame (why : Malformed)
  deriving DecidableEq, Repr

/-- What a power cycle finds and the BLPSM does not set: the draw for `page_buffer` (R35) and the memories, "launch
inputs" (R59). -/
structure Launch where
  pageBuffer : Memory
  pm : Memory
  ee : Memory
  slotBoard : Byte
  slotBitrate : Byte
  fuse : FuseBytes
  deriving DecidableEq, Repr

/-- The machine right after reset, for any build and any launch inputs (70_reset_and_hazards.md R290). -/
def State.resetWith (c : Config) (l : Launch) : State where
  cfg := c
  msg := 0
  phase := .idle
  targetPage := 0
  bufferOffset := 0
  pageBuffer := l.pageBuffer
  chunk := 0
  board := latchBoard l.slotBoard c.buildBoardId
  sup := .waitingForFirstFrame
  timer := .armed
  ctl := .poll
  fx := []
  rxq := []
  txq := []
  pm := l.pm
  ee := l.ee
  slotBoard := l.slotBoard
  slotBitrate := l.slotBitrate
  fuse := l.fuse
  events := []

/-- The launch inputs of `State.reset`: no byte listed in PB, PM and EE, `slot_board` and FUSE as in the example
configuration of 95_test_vectors.md §0, `slot_bitrate` 0 (DESIGN CHOICE, notes/assumptions/2.md and 3.md, unsafe). -/
def Launch.reference : Launch where
  pageBuffer := []
  pm := []
  ee := []
  slotBoard := 0x05
  slotBitrate := 0
  fuse := ⟨0x0A, 0x0B, 0x0C, 0x0D⟩

/-- The machine right after reset in the one build and with the one launch that the model names. -/
def State.reset : State := State.resetWith Config.reference Launch.reference

end Sys2Proof.Machine
end

