-- ==== Sys2Proof/Machine/Ops.lean ====
section
/-! DEFINITION. The named operations over memories and registers, and the course every frame takes: the address
filter, the supervisor's first frame, the sequencer, the reply (40_frame_validator.md R130–R142). The ERROR reply is
the machine's whole trap mechanism (60_exceptions.md R273): `takeError`; there is no return from it (R274). -/

namespace Sys2Proof.Machine

/-! ### Memories -/

/-- What an unlisted address reads as (DESIGN CHOICE, notes/assumptions/4.md, unsafe). -/
def Memory.unlisted : Byte := 0

/-- The canonical form: addresses strictly rising, and no entry equal to what an unlisted address reads as. -/
abbrev Memory.wf (m : Memory) : Prop :=
  m.Pairwise (fun c d => c.1 < d.1) ∧ ∀ c ∈ m, c.2 ≠ Memory.unlisted

/-- The byte at an address. -/
def Memory.read (m : Memory) (a : Nat) : Byte :=
  match m.find? (fun c => c.1 == a) with
  | some c => c.2
  | none => Memory.unlisted

/-- `MemRead`: `n` bytes from address `a`, in ascending address order (00_scope.md R26). -/
def Memory.readBytes (m : Memory) (a : Nat) : Nat → List Byte
  | 0 => []
  | n + 1 => m.read a :: m.readBytes (a + 1) n

/-- The entries a run of bytes from address `a` makes. -/
def Memory.cells (a : Nat) : List Byte → Memory
  | [] => []
  | b :: bs => if b = Memory.unlisted then Memory.cells (a + 1) bs else (a, b) :: Memory.cells (a + 1) bs

/-- `MemWrite`: byte `bs[i]` at address `a + i` (00_scope.md R26), keeping the canonical form. -/
def Memory.write (m : Memory) (a : Nat) (bs : List Byte) : Memory :=
  m.filter (fun c => c.1 < a) ++ Memory.cells a bs ++ m.filter (fun c => a + bs.length ≤ c.1)

/-- The bytes of program memory (10_state.md R59). -/
def State.pmSize (s : State) : Nat := s.cfg.flashPages * s.cfg.pageSize

/-- `MemRead(PM, a, n)`; an address past the space faults (DESIGN CHOICE, notes/assumptions/12.md). -/
def State.readPm (s : State) (a n : Nat) : Except Fault (List Byte) :=
  if a + n ≤ s.pmSize then .ok (s.pm.readBytes a n) else .error (.noSuchAddress .pm a)

/-- `MemRead(EE, a, n)`; an address past the space faults. -/
def State.readEe (s : State) (a n : Nat) : Except Fault (List Byte) :=
  if a + n ≤ s.cfg.eepromSize then .ok (s.ee.readBytes a n) else .error (.noSuchAddress .ee a)

/-- `MemRead(FUSE, 0, 4)` (10_state.md R55). -/
def State.readFuse (s : State) : List Byte := [s.fuse.b0, s.fuse.b1, s.fuse.b2, s.fuse.b3]

/-- The receive-availability counter, `len(rxq)` (10_state.md R50). -/
def State.available (s : State) : Nat := s.rxq.length

/-! ### Effects and replies -/

/-- `emit`: appends effects to the current frame's list (00_scope.md R27). -/
def State.emit (s : State) (es : List Effect) : State := { s with fx := s.fx ++ es }

/-- `reply(kind, code, p)` (00_scope.md R28). -/
def State.reply (s : State) (kind : Byte) (code : Code) (p : List Byte) : State :=
  s.emit [.send (replyCommand kind code) p]

/-- The end of a step from POLL: `ctl <- (fx = [] ? POLL : EXEC)` (40_frame_validator.md R130). -/
def State.settle (s : State) : State := { s with ctl := if s.fx.isEmpty then .poll else .exec }

/-! ### Handler results and the error reply -/

/-- The spec's labels of why a handler failed (60_exceptions.md R261); they never appear on the wire. -/
inductive Cause where
  | eLen
  | eOffset
  | ePhase
  | eChunk
  | eRange
  | eArg
  | eUnknown
  | eProtect
  deriving DecidableEq, Repr

/-- How a handler ends (40_frame_validator.md R137). -/
inductive Result where
  | success (payload : List Byte)
  | silent
  | error (cause : Cause) (payload : List Byte)
  deriving DecidableEq, Repr

/-- What a handler leaves: the state and its result, or a fault. -/
abbrev Handled := Except Fault (State × Result)

/-- A command handler: it reads the frame's operands and the state. -/
abbrev Handler := Fields → State → Handled

/-- Taking an error, the "trap" of 60_exceptions.md R273: the one ERROR reply. Nothing is saved and there is no
vector; the Session stays "as the handler left it" (40_frame_validator.md R139). -/
def State.takeError (s : State) (code : Code) (p : List Byte) : State := s.reply kindError code p

/-- The dispatcher's reply (R138–R140). -/
def State.answer (s : State) (code : Code) : Result → State
  | .success p => s.reply kindSuccess code p
  | .silent => s
  | .error _ p => s.takeError code p

/-- `raise Error(cause, f.payload)`: the handler ends and the Session is as it stands (R28, R139). -/
def raiseError (cause : Cause) (f : Fields) (s : State) : Handled := .ok (s, .error cause f.payload)

/-- "All handlers validate `payload_length` first" (42_commands.md R190). -/
def withLength (required : Nat) (h : Handler) : Handler := fun f s =>
  if f.payload.length = required then h f s else raiseError .eLen f s

/-- "Not recognized" (42_commands.md R230). -/
def handleUnrecognized : Handler := fun f s => raiseError .eUnknown f s

/-- An optional command is present iff its parameter is true; otherwise R230 (00_scope.md R19; DEDUCED,
notes/assumptions/10.md). -/
def optional (present : Bool) (h : Handler) : Handler := fun f s =>
  if present then h f s else handleUnrecognized f s

/-! ### The course of a frame -/

/-- The address filter (40_frame_validator.md R131). -/
def State.visible (s : State) (code : Code) (address : Byte) : Bool :=
  address == s.board || (address == s.cfg.multicastAddr && code == 0)

/-- `supervisor_first_frame()` (43_boot_supervisor.md R242). -/
def State.firstFrame (s : State) : State :=
  { s with
    timer := if s.sup = .waitingForFirstFrame then .stopped else s.timer
    sup := if s.sup = .waitingForFirstFrame then .active else s.sup }

/-- The sequencer's advance (R135), the only write of `msg`. -/
def State.advance (s : State) : State := { s with msg := nextNumber s.msg }

/-- `process(f)` for a REQUEST frame (R142): address, supervisor, sequence number, handler, reply. The supervisor moves
before the number is checked, against 10_state.md R46's second sentence (DEDUCED, notes/assumptions/21.md). -/
def processRequest (code : Code) (h : Handler) (f : Fields) (s : State) : Host.Outcome State Fault Refusal :=
  if s.visible code f.address then
    if f.number = nextNumber s.msg then
      match h f s.firstFrame.advance with
      | .ok (t, r) => .next (t.answer code r).settle
      | .error e => .fault e
    else .next (s.firstFrame.reply kindWrongNumber code []).settle
  else .next s.settle

/-- `process(f)` for a frame of another kind: ignored after the address filter and the supervisor (R131–R133). -/
def processIgnored (code : Code) (f : Fields) (s : State) : Host.Outcome State Fault Refusal :=
  if s.visible code f.address then .next s.firstFrame.settle else .next s.settle

end Sys2Proof.Machine
end

