-- ==== Sys2Proof/Machine/PageBuffer.lean ====
section
/-! DEFINITION. The page-buffer controller: DATA (41_page_buffer.md R160–R168). -/

namespace Sys2Proof.Machine

/-- A DATA abort: `phase <- Idle` and an ERROR reply with the request payload (R162, R164). -/
def abortGroup (cause : Cause) (f : Fields) (s : State) : Handled :=
  raiseError cause f { s with phase := .idle }

/-- The commit (R167): erase, write, re-enable, then the SUCCESS reply with the page before the increment. -/
def commitPage (s : State) : Handled :=
  let page := s.targetPage
  let s := s.emit [.flashErase page.toNat,
    .flashWrite page.toNat (s.pageBuffer.readBytes 0 s.cfg.pageSize), .rwwEnable]
  .ok ({ s with bufferOffset := 0, targetPage := page + 1 }, .success (bytesOf page))

/-- The end of a group (R166–R168): a full buffer is refused in the protected region or committed; one that is not
full is acknowledged. -/
def completeGroup (s : State) : Handled :=
  if s.bufferOffset.toNat = s.cfg.chunks then
    if s.cfg.maxPages ≤ s.targetPage then .ok (s, .error .eProtect (bytesOf s.targetPage))
    else commitPage s
  else .ok (s, .success [])

/-- Storing a chunk (R165): the 4 bytes at PB address `4 * buffer_offset`, the next slot, the countdown. -/
def storeChunk (p : List Byte) (s : State) : State :=
  { s with
    pageBuffer := s.pageBuffer.write (4 * s.bufferOffset.toNat) p
    bufferOffset := s.bufferOffset + 1
    chunk := satDec s.chunk }

/-- Accepting a chunk whose counter, flag cleared, is `c` (R165): silent unless it is the terminal chunk. -/
def acceptChunk (c : Byte) (p : List Byte) (s : State) : Handled :=
  let s := storeChunk p s
  if c = 0 then completeGroup s else .ok (s, .silent)

/-- DATA (R160), its checks in the order of R161 and R162. -/
def handleData : Handler := fun f s =>
  if f.payload.length ≠ 4 then abortGroup .eLen f s
  else if s.cfg.chunks ≤ s.bufferOffset.toNat then abortGroup .eOffset f s
  else if s.phase = .idle then abortGroup .ePhase f s
  else if startOfGroup f.chunkCounter then
    acceptChunk (countdown f.chunkCounter) f.payload
      { s with chunk := countdown f.chunkCounter, phase := .collectingPage }
  else if f.chunkCounter = s.chunk then acceptChunk f.chunkCounter f.payload s
  else abortGroup .eChunk f s

/-- DATA (R160). -/
def execData (f : Fields) (s : State) : Host.Outcome State Fault Refusal :=
  processRequest 3 handleData f s

end Sys2Proof.Machine
end

