-- ==== Sys2Proof/Machine/Session.lean ====
section
/-! DEFINITION. The commands every build has, DATA apart: NO_OPERATION, IDENTIFY, SET_ADDRESS and START_APP
(42_commands.md §1–§3, §11). -/

namespace Sys2Proof.Machine

/-- NO_OPERATION, the heartbeat (R229). -/
def handleNoOperation : Handler := withLength 0 fun _ s => .ok (s.emit [.indicatorToggle], .silent)

/-- NO_OPERATION (R229). -/
def execNoOperation (f : Fields) (s : State) : Host.Outcome State Fault Refusal :=
  processRequest 0 handleNoOperation f s

/-- What IDENTIFY reports (R191): the two nibbles of 30_encoding.md R109, the page-size class, the page count. -/
def capability (c : Config) : List Byte :=
  [c.deviceType ++ c.protocolVersion, c.pageSizeClass.zeroExtend 8, hi c.maxPages, lo c.maxPages]

/-- IDENTIFY (R191). -/
def handleIdentify : Handler := withLength 0 fun _ s => .ok (s, .success (capability s.cfg))

/-- IDENTIFY (R191). -/
def execIdentify (f : Fields) (s : State) : Host.Outcome State Fault Refusal :=
  processRequest 1 handleIdentify f s

/-- SET_ADDRESS (R192, R193). -/
def handleSetAddress : Handler := withLength 4 fun f s =>
  if s.cfg.maxPages ≤ pageOf f.payload ∨ s.cfg.chunks ≤ (offsetOf f.payload).toNat then raiseError .eRange f s
  else .ok ({ s with targetPage := pageOf f.payload, bufferOffset := offsetOf f.payload, phase := .collectingPage },
    .success f.payload)

/-- SET_ADDRESS (R192, R193). -/
def execSetAddress (f : Fields) (s : State) : Host.Outcome State Fault Refusal :=
  processRequest 2 handleSetAddress f s

/-- START_APP (R200): its own SUCCESS reply, then Jump. -/
def handleStartApp : Handler := withLength 0 fun _ s =>
  .ok ((s.reply kindSuccess 4 []).emit [.jump], .silent)

/-- START_APP (R200). -/
def execStartApp (f : Fields) (s : State) : Host.Outcome State Fault Refusal :=
  processRequest 4 handleStartApp f s

end Sys2Proof.Machine
end

