-- ==== Sys2Proof/Machine/Storage.lean ====
section
/-! DEFINITION. The optional commands: READ_FLASH, GET_FUSEBITS, CHIP_ERASE, READ_EEPROM, WRITE_EEPROM, SET_BOARD_ID
and SET_BITRATE (42_commands.md §4–§10). -/

namespace Sys2Proof.Machine

/-- READ_FLASH (R205). -/
def handleReadFlash : Handler := withLength 4 fun f s =>
  if s.cfg.readFlashPageLimit ≤ (pageOf f.payload).toNat ∨ s.cfg.chunks ≤ (offsetOf f.payload).toNat then
    raiseError .eRange f s
  else
    match s.readPm (slotAddress s.cfg.pageSize (pageOf f.payload).toNat (offsetOf f.payload).toNat) 4 with
    | .ok bs => .ok (s, .success bs)
    | .error e => .error e

/-- READ_FLASH (R205). -/
def execReadFlash (f : Fields) (s : State) : Host.Outcome State Fault Refusal :=
  processRequest 5 (optional s.cfg.optReadFlash handleReadFlash) f s

/-- GET_FUSEBITS (R208). -/
def handleGetFusebits : Handler := withLength 0 fun _ s => .ok (s, .success s.readFuse)

/-- GET_FUSEBITS (R208). -/
def execGetFusebits (f : Fields) (s : State) : Host.Outcome State Fault Refusal :=
  processRequest 6 (optional s.cfg.optGetFusebits handleGetFusebits) f s

/-- The effects of CHIP_ERASE (R212): every writable page in ascending order, then the re-enable. -/
def eraseAll (c : Config) : List Effect :=
  (List.range c.maxPages.toNat).map Effect.flashErase ++ [.rwwEnable]

/-- CHIP_ERASE (R212). -/
def handleChipErase : Handler := withLength 0 fun _ s => .ok (s.emit (eraseAll s.cfg), .success [])

/-- CHIP_ERASE (R212). -/
def execChipErase (f : Fields) (s : State) : Host.Outcome State Fault Refusal :=
  processRequest 7 (optional s.cfg.optChipErase handleChipErase) f s

/-- READ_EEPROM (R215). -/
def handleReadEeprom : Handler := withLength 3 fun f s =>
  if (countOf f.payload).toNat < 1 ∨ 4 < (countOf f.payload).toNat ∨
      s.cfg.eepromSize < (addrOf f.payload).toNat + (countOf f.payload).toNat then
    raiseError .eRange f s
  else
    match s.readEe (addrOf f.payload).toNat (countOf f.payload).toNat with
    | .ok bs => .ok (s, .success bs)
    | .error e => .error e

/-- READ_EEPROM (R215). -/
def execReadEeprom (f : Fields) (s : State) : Host.Outcome State Fault Refusal :=
  processRequest 8 (optional s.cfg.optReadEeprom handleReadEeprom) f s

/-- WRITE_EEPROM (R218): at least 3 payload bytes. -/
def handleWriteEeprom : Handler := fun f s =>
  if f.payload.length < 3 then raiseError .eLen f s
  else if s.cfg.eepromSize < (addrOf f.payload).toNat + (dataOf f.payload).length then raiseError .eRange f s
  else .ok (s.emit [.eepromWrite (addrOf f.payload).toNat (dataOf f.payload)], .success [])

/-- WRITE_EEPROM (R218). -/
def execWriteEeprom (f : Fields) (s : State) : Host.Outcome State Fault Refusal :=
  processRequest 9 (optional s.cfg.optWriteEeprom handleWriteEeprom) f s

/-- SET_BOARD_ID (R224): persisted for the next boot; `board` does not change. -/
def handleSetBoardId : Handler := withLength 1 fun f s =>
  if payloadByte f.payload 0 = s.cfg.multicastAddr then raiseError .eArg f s
  else .ok (s.emit [.cfgWrite .board (payloadByte f.payload 0)], .success [])

/-- SET_BOARD_ID (R224). -/
def execSetBoardId (f : Fields) (s : State) : Host.Outcome State Fault Refusal :=
  processRequest 10 (optional s.cfg.optSetBoardId handleSetBoardId) f s

/-- SET_BITRATE (R227): persisted for the next boot. -/
def handleSetBitrate : Handler := withLength 1 fun f s =>
  if bitrateCodes ≤ (payloadByte f.payload 0).toNat then raiseError .eArg f s
  else .ok (s.emit [.cfgWrite .bitrate (payloadByte f.payload 0)], .success [])

/-- SET_BITRATE (R227). -/
def execSetBitrate (f : Fields) (s : State) : Host.Outcome State Fault Refusal :=
  processRequest 11 (optional s.cfg.optSetBitrate handleSetBitrate) f s

end Sys2Proof.Machine
end

