-- ==== Sys2Proof/Machine/Validator.lean ====
section
/-! DEFINITION. The frames that select no command (30_encoding.md R110): the kinds that are ignored
(40_frame_validator.md R133) and the requests with an unassigned code (42_commands.md R230). -/

namespace Sys2Proof.Machine

/-- IGNORED_KIND_SUCCESS (R133). -/
def execIgnoredKindSuccess (code : Code) (f : Fields) (s : State) : Host.Outcome State Fault Refusal :=
  processIgnored code f s

/-- IGNORED_KIND_ERROR (R133). -/
def execIgnoredKindError (code : Code) (f : Fields) (s : State) : Host.Outcome State Fault Refusal :=
  processIgnored code f s

/-- IGNORED_KIND_WRONG_NUMBER (R133). -/
def execIgnoredKindWrongNumber (code : Code) (f : Fields) (s : State) : Host.Outcome State Fault Refusal :=
  processIgnored code f s

/-- UNRECOGNIZED_REQUEST (R230): E_UNKNOWN, the request payload echoed. -/
def execUnrecognizedRequest (code : Code) (f : Fields) (s : State) : Host.Outcome State Fault Refusal :=
  processRequest code handleUnrecognized f s

end Sys2Proof.Machine
end

