-- ==== Sys2Proof/Machine/Dispatch.lean ====
section
/-! DEFINITION. The dispatch of an instruction to its meaning (40_frame_validator.md R136, 42_commands.md R231). -/

namespace Sys2Proof.Machine

def exec (i : Instr) (s : State) : Host.Outcome State Fault Refusal :=
  match i with
  | .noOperation f => Sys2Proof.Machine.execNoOperation f s
  | .identify f => Sys2Proof.Machine.execIdentify f s
  | .setAddress f => Sys2Proof.Machine.execSetAddress f s
  | .data f => Sys2Proof.Machine.execData f s
  | .startApp f => Sys2Proof.Machine.execStartApp f s
  | .readFlash f => Sys2Proof.Machine.execReadFlash f s
  | .getFusebits f => Sys2Proof.Machine.execGetFusebits f s
  | .chipErase f => Sys2Proof.Machine.execChipErase f s
  | .readEeprom f => Sys2Proof.Machine.execReadEeprom f s
  | .writeEeprom f => Sys2Proof.Machine.execWriteEeprom f s
  | .setBoardId f => Sys2Proof.Machine.execSetBoardId f s
  | .setBitrate f => Sys2Proof.Machine.execSetBitrate f s
  | .unrecognizedRequest code f => Sys2Proof.Machine.execUnrecognizedRequest code f s
  | .ignoredKindSuccess code f => Sys2Proof.Machine.execIgnoredKindSuccess code f s
  | .ignoredKindError code f => Sys2Proof.Machine.execIgnoredKindError code f s
  | .ignoredKindWrongNumber code f => Sys2Proof.Machine.execIgnoredKindWrongNumber code f s

end Sys2Proof.Machine
end

