-- ==== Sys2Proof/Machine/Effects.lean ====
section
/-! DEFINITION. Performing the head of `fx` (70_reset_and_hazards.md R300–R303). -/

namespace Sys2Proof.Machine

/-- The effect is done: `fx <- rest`, and `ctl <- POLL` when nothing is left (R300). -/
def State.retire (s : State) (rest : List Effect) : State :=
  { s with fx := rest, ctl := if rest.isEmpty then .poll else .exec }

/-- Program memory with page `p` holding `bytes`; a page past the space faults. -/
def State.writePage (s : State) (p : Nat) (bytes : List Byte) : Except Fault State :=
  if p < s.cfg.flashPages ∧ bytes.length ≤ s.cfg.pageSize then
    .ok { s with pm := s.pm.write (p * s.cfg.pageSize) bytes }
  else .error (.noSuchAddress .pm (p * s.cfg.pageSize))

/-- EEPROM with `bytes` from address `a`; an address past the space faults. -/
def State.writeEe (s : State) (a : Nat) (bytes : List Byte) : Except Fault State :=
  if a + bytes.length ≤ s.cfg.eepromSize then .ok { s with ee := s.ee.write a bytes }
  else .error (.noSuchAddress .ee a)

/-- A configuration slot takes a value (R302). -/
def State.writeCfg (s : State) : CfgSlot → Byte → State
  | .board, v => { s with slotBoard := v }
  | .bitrate, v => { s with slotBitrate := v }

/-- The step after a memory effect, which succeeds (D19; notes/assumptions/14.md, unsafe), or the fault of an address that
does not exist. -/
def finishEffect (r : Except Fault State) (rest : List Effect) : Host.Outcome State Fault Refusal :=
  match r with
  | .ok t => .next (t.retire rest)
  | .error e => .fault e

/-- Performing effect `e` with `rest` behind it. `Send` waits while `txq` is full (R301): the step then changes
nothing (notes/assumptions/7.md). `RwwEnable` and the indicator effects have no modelled state (R302). `Jump` ends
the run (R303). -/
def performEffect (e : Effect) (rest : List Effect) (s : State) : Host.Outcome State Fault Refusal :=
  match e with
  | .send c p =>
    if s.txq.length < s.cfg.txSlots then .next (State.retire { s with txq := s.txq ++ [⟨c, p⟩] } rest) else .next s
  | .flashErase p => finishEffect (s.writePage p (List.replicate s.cfg.pageSize s.cfg.erasedByte)) rest
  | .flashWrite p bytes => finishEffect (s.writePage p bytes) rest
  | .rwwEnable => .next (s.retire rest)
  | .eepromWrite a bytes => finishEffect (s.writeEe a bytes) rest
  | .cfgWrite slot v => .next ((s.writeCfg slot v).retire rest)
  | .indicatorToggle => .next (s.retire rest)
  | .indicatorOff => .next (s.retire rest)
  | .jump => .next { s with sup := .runningApplication, ctl := .halt, fx := rest }

end Sys2Proof.Machine
end

