-- ==== Sys2Proof/Machine/Environment.lean ====
section
/-! DEFINITION. The moves of the BLPSM's environment: the grace timer (43_boot_supervisor.md R243), Transport
(70_reset_and_hazards.md R304) and the power (R290, R293). -/

namespace Sys2Proof.Machine

/-- The grace period runs out (R243). Where the rule does not enable it, nothing happens: the timer expires "at most
once" and never "after being stopped" (R305; DESIGN CHOICE,
notes/assumptions/18.md). -/
def expireTimer (s : State) : State :=
  if s.sup = .waitingForFirstFrame ∧ s.timer = .armed ∧ s.ctl = .poll then
    (State.emit { s with timer := .expired, sup := .runningApplication } [.indicatorOff, .jump]).settle
  else s

/-- A frame arrives (R304a): appended if there is room, else lost (D22; DESIGN CHOICE, notes/assumptions/17.md). A delivery
that is no frame has no move. -/
def arriveFrame (d : RxFrame) (s : State) : Host.Outcome State Fault Refusal :=
  match decode d with
  | .ok _ => .next (if s.rxq.length < s.cfg.rxDepth then { s with rxq := s.rxq ++ [d] } else s)
  | .error e => .refused (.malformedFrame e)

/-- Transport puts the head of `txq` on the bus (R304b); with `txq` empty nothing happens (DESIGN CHOICE,
notes/assumptions/18.md). -/
def transmitReply (s : State) : State := { s with txq := s.txq.drop 1 }

/-- A new power cycle (R290): the Session and the queues at their reset values, `board` latched again, the memories
kept, the page buffer holding the drawn bytes. The environment's moves that are still to come stay. What the application
wrote after a Jump is left out (DESIGN CHOICE, notes/assumptions/16.md, unsafe). It may come at EXEC and drops the effects
still pending, so that power lost between a commit's erase and its write, which 20_memory.md R82 calls outside the
source, leaves the page wholly erased (DESIGN CHOICE, notes/assumptions/23.md, unsafe). -/
def powerCycle (drawn : List Byte) (s : State) : State :=
  { State.resetWith s.cfg
      { pageBuffer := Memory.write [] 0 (drawn.take s.cfg.pageSize)
        pm := s.pm, ee := s.ee, slotBoard := s.slotBoard, slotBitrate := s.slotBitrate, fuse := s.fuse } with
    events := s.events }

end Sys2Proof.Machine
end

