-- ==== Sys2Proof/Machine/Fetch.lean ====
section
/-! DEFINITION. The BLPSM's own step: taking a frame from POLL, performing an effect from EXEC (10_state.md R41). -/

namespace Sys2Proof.Machine

/-- The frame step (40_frame_validator.md R130): pops the head of `rxq`, decodes it and runs it. With `rxq` empty, or
the application running, it is not enabled and nothing happens (notes/assumptions/7.md). -/
def frameStep (s : State) : Host.Outcome State Fault Refusal :=
  if s.sup = .runningApplication then .next s
  else
    match s.rxq with
    | [] => .next s
    | d :: rest =>
      match decode d with
      | .ok i => exec i { s with rxq := rest }
      | .error e => .refused (.malformedFrame e)

/-- The effect step (70_reset_and_hazards.md R300). EXEC with nothing pending is reached by no run (DESIGN CHOICE,
notes/assumptions/22.md). -/
def effectStep (s : State) : Host.Outcome State Fault Refusal :=
  match s.fx with
  | [] => .next s
  | e :: rest => performEffect e rest s

/-- The step the control state enables (R41); "from HALT there is no step". -/
def coreStep (s : State) : Host.Outcome State Fault Refusal :=
  match s.ctl with
  | .poll => frameStep s
  | .exec => effectStep s
  | .halt => .fault .halted

/-- The move of the agent whose turn it is (60_exceptions.md R272). -/
def stepEvent (e : Event) (s : State) : Host.Outcome State Fault Refusal :=
  match e with
  | .run => coreStep s
  | .expire => .next (expireTimer s)
  | .arrive d => arriveFrame d s
  | .transmit => .next (transmitReply s)
  | .powerCycle drawn => .next (powerCycle drawn s)

/-- The agent that moves next: the head of `events`, the BLPSM when none is listed. -/
def State.nextEvent (s : State) : Event := s.events.headD .run

/-- The state with that move taken off the list. -/
def State.dropEvent (s : State) : State := { s with events := s.events.tail }

/-- `s` about to take the frame `d` addressed to it and in sequence: at POLL, `d` at the head of `rxq`, the BLPSM to
move, `board` the frame's address and `msg` one before its number (DESIGN CHOICE, notes/assumptions/11.md). -/
def State.withFrame (s : State) (d : RxFrame) : State :=
  { s with
    rxq := d :: s.rxq
    board := d.bytes.getD 0 0
    msg := d.bytes.getD 2 0 - 1
    ctl := .poll
    fx := []
    sup := if s.sup = .runningApplication then .active else s.sup
    timer := if s.sup = .runningApplication then .stopped else s.timer
    events := .run :: s.events }

end Sys2Proof.Machine
end

