-- ==== Sys2Proof/Machine/Step.lean ====
section
/-! DEFINITION. One step of the machine: the next move of the list `events`. -/

namespace Sys2Proof.Machine

/-- One step: the agent whose turn it is makes its move. -/
def step (s : State) : Host.Outcome State Fault Refusal := stepEvent s.nextEvent s.dropEvent

/-- `s` with the opcode-table word's frame where the next step takes it. -/
def State.withFetchWord (s : State) (nbits w : Nat) : State := s.withFrame (tableFrame nbits w)

end Sys2Proof.Machine
end

