-- ==== Sys2Proof/Safety.lean ====
section
/-! DEFINITION. What counts as a good state and a safe run, and the vocabulary of the statements. It is written from
the spec's words and does not use the operations of Machine/ that it speaks about. -/

namespace Sys2Proof

/-! ### Which commands a build has, and the lengths they require -/

/-- The optional command is compiled in (00_scope.md R19); the other instructions always are. -/
def Instr.present (c : Config) : Instr → Bool
  | .noOperation _ | .identify _ | .setAddress _ | .data _ | .startApp _ | .unrecognizedRequest _ _
  | .ignoredKindSuccess _ _ | .ignoredKindError _ _ | .ignoredKindWrongNumber _ _ => true
  | .readFlash _ => c.optReadFlash
  | .getFusebits _ => c.optGetFusebits
  | .chipErase _ => c.optChipErase
  | .readEeprom _ => c.optReadEeprom
  | .writeEeprom _ => c.optWriteEeprom
  | .setBoardId _ => c.optSetBoardId
  | .setBitrate _ => c.optSetBitrate

/-- The payload has not the length the command's handler requires (30_encoding.md R107). DATA has a rule of its own
(R162), and an unrecognised request and an ignored frame have no required length. -/
def Instr.lengthWrong : Instr → Bool
  | .noOperation f | .identify f | .startApp f | .getFusebits f | .chipErase f => decide (f.payload.length ≠ 0)
  | .setAddress f | .readFlash f => decide (f.payload.length ≠ 4)
  | .readEeprom f => decide (f.payload.length ≠ 3)
  | .writeEeprom f => decide (f.payload.length < 3)
  | .setBoardId f | .setBitrate f => decide (f.payload.length ≠ 1)
  | .data _ | .unrecognizedRequest _ _ | .ignoredKindSuccess _ _ | .ignoredKindError _ _
  | .ignoredKindWrongNumber _ _ => false

end Sys2Proof

namespace Sys2Proof.Machine

/-! ### The vocabulary of the statements -/

/-- A frame with this code and address is visible (40_frame_validator.md R131). -/
abbrev State.Sees (s : State) (code : Code) (address : Byte) : Prop :=
  address = s.board ∨ (address = s.cfg.multicastAddr ∧ code.toNat = 0)

/-- The frame's message number is the one the sequencer accepts (R134). -/
abbrev State.Expects (s : State) (number : Byte) : Prop := number.toNat = (s.msg.toNat + 1) % 256

/-- A request with this code and these fields is accepted: visible and in sequence (R131, R134, R135). -/
abbrev State.Accepts (s : State) (code : Code) (f : Fields) : Prop :=
  s.Sees code f.address ∧ s.Expects f.number

/-- The supervisor's state after a visible frame (R132, 43_boot_supervisor.md R242; decisions D4 and D5). -/
def State.supSeen (s : State) : Supervisor :=
  match s.sup with
  | .waitingForFirstFrame => .active
  | .active => .active
  | .runningApplication => .runningApplication

/-- The timer after a visible frame (R132, R242; decisions D4 and D5). -/
def State.timerSeen (s : State) : Timer :=
  match s.sup with
  | .waitingForFirstFrame => .stopped
  | .active => s.timer
  | .runningApplication => s.timer

/-- `s` after a frame step that took a visible frame, emitted `es` and wrote no Session register (R130, R242). -/
def State.sawFrame (s : State) (es : List Effect) : State :=
  { s with
    sup := s.supSeen
    timer := s.timerSeen
    fx := s.fx ++ es
    ctl := if s.fx ++ es = [] then .poll else .exec }

/-- `s` after a frame step that accepted a request, emitted `es` and wrote no Session register but `msg` (R135). -/
def State.accepted (s : State) (es : List Effect) : State :=
  { s.sawFrame es with msg := BitVec.ofNat 8 (s.msg.toNat + 1) }

/-- The reply to a request: the kind's two bits above the code's six (30_encoding.md R102, R108). -/
def answerByte (kind : BitVec 2) (code : Code) : Byte := BitVec.ofNat 8 (64 * kind.toNat + code.toNat)

/-- The ERROR reply that carries the request payload (40_frame_validator.md R139). -/
def errorEcho (code : Code) (f : Fields) : Effect := .send (answerByte 2 code) f.payload

/-- The three preconditions of a DATA chunk hold (41_page_buffer.md R162). -/
abbrev State.Collects (s : State) (f : Fields) : Prop :=
  f.payload.length = 4 ∧ s.bufferOffset.toNat < s.cfg.chunks ∧ s.phase = .collectingPage

/-- The chunk's counter with the start flag cleared (R163, R164). -/
def chunkCount (f : Fields) : Nat := f.chunkCounter.toNat % 128

/-- The chunk starts a group (30_encoding.md R105). -/
abbrev StartsGroup (f : Fields) : Prop := 128 ≤ f.chunkCounter.toNat

/-- The chunk is in order: it starts a group, or its counter is the expected one (R163, R164). -/
abbrev State.InOrder (s : State) (f : Fields) : Prop := StartsGroup f ∨ f.chunkCounter = s.chunk

/-- `s` with the chunk stored: its bytes at PB address `4 * buffer_offset`, the next slot, the countdown one lower
(R165). -/
def State.withChunk (s : State) (f : Fields) : State :=
  { s with
    pageBuffer := s.pageBuffer.write (4 * s.bufferOffset.toNat) f.payload
    bufferOffset := BitVec.ofNat 16 (s.bufferOffset.toNat + 1)
    chunk := BitVec.ofNat 8 (chunkCount f - 1) }

/-- A memory's bytes are listed in canonical form, and none past the space's size. -/
def Memory.Within (m : Memory) (size : Nat) : Prop := m.wf ∧ ∀ c ∈ m, c.1 < size

/-! ### The invariant of every run -/

/-- What the spec guarantees of an effect the BLPSM emits: only replies are sent, with at most 4 payload bytes
(30_encoding.md R103, R108); no erase or write outside the writable region, and whole pages only (10_state.md R45,
20_memory.md R75, R71); EEPROM bytes that exist (R218); configuration values the handlers let through (R224, R227). -/
def Effect.Legal (c : Config) : Effect → Prop
  | .send k p => 64 ≤ k.toNat ∧ p.length ≤ 4
  | .flashErase p => p < c.maxPages.toNat
  | .flashWrite p bytes => p < c.maxPages.toNat ∧ bytes.length = c.pageSize
  | .eepromWrite a bytes => a + bytes.length ≤ c.eepromSize
  | .cfgWrite .board v => v ≠ c.multicastAddr
  | .cfgWrite .bitrate v => v.toNat < bitrateCodes
  | .rwwEnable | .indicatorToggle | .indicatorOff | .jump => True

/-- The invariant: the configuration is one the spec admits, the registers are in range, the control state and the
supervisor agree, what is queued is legal, and the memories are canonical and inside their spaces. -/
structure State.Inv (s : State) : Prop where
  config : s.cfg.wf
  /-- `buffer_offset ≤ CHUNKS` (R44) -/
  offsetInPage : s.bufferOffset.toNat ≤ s.cfg.chunks
  /-- `chunk` "never exceeds 127" (R36) -/
  chunkSevenBits : s.chunk.toNat ≤ 127
  /-- `target_page` may reach MAX_PAGES (R45) -/
  targetInRange : s.targetPage.toNat ≤ s.cfg.maxPages.toNat
  /-- `timer = ARMED` iff `sup = WAITING_FOR_FIRST_FRAME` (R248) -/
  armedIffWaiting : s.timer = .armed ↔ s.sup = .waitingForFirstFrame
  /-- `timer = EXPIRED` implies RUNNING_APPLICATION (R248) -/
  expiredRuns : s.timer = .expired → s.sup = .runningApplication
  /-- before the first visible frame no effect is pending (R241, R242) -/
  waitingPolls : s.sup = .waitingForFirstFrame → s.ctl = .poll
  /-- `fx` is empty whenever `ctl = POLL` (R42), and the application does not run -/
  pollIdle : s.ctl = .poll → s.fx = [] ∧ s.sup ≠ .runningApplication
  /-- at EXEC an effect is pending (R41) -/
  execBusy : s.ctl = .exec → s.fx ≠ []
  /-- HALT: the application runs and nothing is pending (R303, R320) -/
  haltEnds : s.ctl = .halt → s.fx = [] ∧ s.sup = .runningApplication
  /-- after the expiry the pending effects end in Jump (R243) -/
  runningJumps : s.ctl = .exec → s.sup = .runningApplication → s.fx.getLast? = some .jump
  /-- Jump is the last effect of its frame (R200, R243) -/
  jumpIsLast : ∀ e ∈ s.fx.dropLast, e ≠ .jump
  effectsLegal : ∀ e ∈ s.fx, e.Legal s.cfg
  pageBufferWithin : s.pageBuffer.Within s.cfg.pageSize
  pmWithin : s.pm.Within (s.cfg.flashPages * s.cfg.pageSize)
  eeWithin : s.ee.Within s.cfg.eepromSize
  /-- Transport delivers well-formed frames only (R101, R305), at most RX_DEPTH (R50) -/
  framesWellFormed : ∀ d ∈ s.rxq, d.wf = true
  rxInDepth : s.rxq.length ≤ s.cfg.rxDepth
  /-- at most TX_SLOTS replies are queued (R51) -/
  txInSlots : s.txq.length ≤ s.cfg.txSlots

/-- Launch inputs that a build of this configuration can find. -/
def Launch.Fits (l : Launch) (c : Config) : Prop :=
  l.pageBuffer.Within c.pageSize ∧ l.pm.Within (c.flashPages * c.pageSize) ∧ l.ee.Within c.eepromSize

/-! ### Assembling a page -/

/-- The chunk `f` is accepted by the page-buffer controller in `s` (R162–R164). -/
abbrev State.TakesChunk (s : State) (f : Fields) : Prop :=
  s.Accepts 3 f ∧ s.Collects f ∧ s.InOrder f

/-- `s` after accepting the DATA chunks one by one, none of them an error; `none` where one is not accepted. The effects
pile up in `fx`, which a run performs between the frames without touching the Session (R47). -/
def State.feedChunks (s : State) : List Fields → Option State
  | [] => some s
  | f :: fs =>
    if s.TakesChunk f then
      match exec (.data f) s with
      | .next t => t.feedChunks fs
      | .fault _ => none
      | .refused _ => none
    else none

/-- The effect erases or writes program memory. -/
def Effect.isFlash : Effect → Bool
  | .flashErase _ | .flashWrite _ _ => true
  | .send _ _ | .rwwEnable | .eepromWrite _ _ | .cfgWrite _ _ | .indicatorToggle | .indicatorOff | .jump => false

/-- The effect sends a reply. -/
def Effect.isSend : Effect → Bool
  | .send _ _ => true
  | .flashErase _ | .flashWrite _ _ | .rwwEnable | .eepromWrite _ _ | .cfgWrite _ _ | .indicatorToggle
  | .indicatorOff | .jump => false

end Sys2Proof.Machine
end

