-- ==== Sys2Proof/Certificates/Slice0/Obligations.lean ====
section
/-! DEFINITION. The statements for the provers. Each docstring names the rule of spec/ it formalises; where a clause
rests on a decision the spec marks as its own (D<n> of 92_eei_decisions.md) or on a convention of the model (a row of
notes/assumptions/), the docstring says so. -/

open Sys2Proof Sys2Proof.Machine

/-! ### Frames and their encoding (30_encoding.md) -/

/-- R100–R104, R110: decoding the frame of any well-formed instruction gives it back, whatever its operands. -/
def Obligations.DecodeOfEncodeIsTheInstruction : Prop :=
  ∀ i : Instr, i.wf = true → decode (encode i) = .ok i

/-- R100–R104, R110: a delivery that decodes is the frame of the instruction it decodes to, and that instruction is
well formed, so no two frames decode to one instruction. -/
def Obligations.EncodeOfDecodeIsTheFrame : Prop :=
  ∀ (d : RxFrame) (i : Instr), decode d = .ok i → encode i = d ∧ i.wf = true

/-- R101 with D36: exactly the deliveries that are no frame are rejected, each by the name of what is wrong (the names are
the model's, notes/assumptions/9.md). -/
def Obligations.MalformedDeliveriesAreRejectedByName : Prop :=
  ∀ d : RxFrame,
    (d.bytes.length < 4 → decode d = .error .shortHeader) ∧
    (4 ≤ d.bytes.length → 4 < d.payloadLength → decode d = .error .payloadTooLong) ∧
    (4 ≤ d.bytes.length → d.payloadLength ≤ 4 → d.bytes.length ≠ 4 + d.payloadLength →
      decode d = .error .lengthMismatch) ∧
    (d.wf = true → ∃ i, decode d = .ok i)

/-- Frames written out from the spec's encoding: 41_page_buffer.md R160's DATA chunk, 95_test_vectors.md S2, V4, V17, V60. -/
def Obligations.SpecFramesDecodeAsTheSpecSays : Prop :=
  decode ⟨[0x05, 0x03, 0x02, 0x82, 0x11, 0x22, 0x33, 0x44], 4⟩ = .ok (.data ⟨0x05, 0x02, 0x82, [0x11, 0x22, 0x33, 0x44]⟩) ∧
  decode ⟨[0x05, 0x01, 0x01, 0x00], 0⟩ = .ok (.identify ⟨0x05, 0x01, 0x00, []⟩) ∧
  decode ⟨[0x05, 0x41, 0x01, 0x00], 0⟩ = .ok (.ignoredKindSuccess 1 ⟨0x05, 0x01, 0x00, []⟩) ∧
  decode ⟨[0x05, 0x0C, 0x01, 0x00, 0x01], 1⟩ = .ok (.unrecognizedRequest 12 ⟨0x05, 0x01, 0x00, [0x01]⟩) ∧
  decode ⟨[0x05, 0x09, 0x01, 0x00, 0x00, 0x10, 0xAA, 0xBB], 4⟩ =
    .ok (.writeEeprom ⟨0x05, 0x01, 0x00, [0x00, 0x10, 0xAA, 0xBB]⟩)

/-! ### The course of a frame (40_frame_validator.md) -/

/-- R131, R263 (the filter itself is decision D3): from POLL, a frame that is not visible changes nothing. -/
def Obligations.InvisibleFrameChangesNothing : Prop :=
  ∀ (i : Instr) (s : State), s.ctl = .poll → s.fx = [] → ¬ s.Sees i.code i.fields.address → exec i s = .next s

/-- R133 for what is ignored: a visible frame of another kind gets no reply, no sequencing and no Session change. That it has
moved the supervisor and stopped the timer all the same is not R133's: it is R132 and R242 with decisions D4 and D5
(DEDUCED, notes/assumptions/20.md). -/
def Obligations.OtherKindsAreIgnored : Prop :=
  ∀ (i : Instr) (s : State), i.kind ≠ 0 → s.ctl = .poll → s.fx = [] → s.Sees i.code i.fields.address →
    exec i s = .next { s with sup := s.supSeen, timer := s.timerSeen }

/-- R134 for the reply and the Session: a visible request with another number gets one WRONG_NUMBER reply with its code and
no payload, whatever its code; `msg` is not advanced and not resynchronised. That the supervisor and the timer have moved
by then is not R134's: it is R132 and R142 with decisions D4 and D5, against R46's second sentence (DEDUCED,
notes/assumptions/21.md). -/
def Obligations.WrongNumberIsAnsweredAndNotAdvanced : Prop :=
  ∀ (i : Instr) (s : State), i.kind = 0 → s.Sees i.code i.fields.address → ¬ s.Expects i.fields.number →
    exec i s = .next (s.sawFrame [.send (answerByte 3 i.code) []])

/-- R135: an accepted request advances `msg` by 1 mod 256 whatever its handler does, a frame that is not an accepted request
leaves it, and so does every step that takes no frame and is no new power cycle. -/
def Obligations.OnlyAcceptanceAdvancesTheNumber : Prop :=
  (∀ (i : Instr) (s t : State), exec i s = .next t → i.kind = 0 → s.Accepts i.code i.fields →
    t.msg.toNat = (s.msg.toNat + 1) % 256) ∧
  (∀ (i : Instr) (s t : State), exec i s = .next t → ¬ (i.kind = 0 ∧ s.Accepts i.code i.fields) → t.msg = s.msg) ∧
  (∀ s t : State, step s = .next t → (∀ pb, s.nextEvent ≠ .powerCycle pb) →
    ¬ (s.nextEvent = .run ∧ s.ctl = .poll ∧ s.sup ≠ .runningApplication ∧ s.rxq ≠ []) → t.msg = s.msg)

/-- R242, R132 (decisions D4, D5): the first visible frame, of any kind and any number, makes the supervisor ACTIVE and
stops the timer; in ACTIVE a frame leaves both as they are. That a request with the wrong number does so too is against
R46's second sentence (DEDUCED, notes/assumptions/21.md). -/
def Obligations.FirstVisibleFrameStopsTheTimer : Prop :=
  ∀ (i : Instr) (s t : State), exec i s = .next t →
    (s.sup = .waitingForFirstFrame → s.Sees i.code i.fields.address → t.sup = .active ∧ t.timer = .stopped) ∧
    (s.sup = .active → t.sup = s.sup ∧ t.timer = s.timer) ∧
    (¬ s.Sees i.code i.fields.address → t.sup = s.sup ∧ t.timer = s.timer)

/-- R103, R108: whatever a frame emits, every `Send` has a kind other than REQUEST and the code of the request, and its
payload has at most 4 bytes when the frame's has. -/
def Obligations.OnlyRepliesToTheRequestAreSent : Prop :=
  ∀ (i : Instr) (s t : State), i.wf = true → exec i s = .next t →
    ∃ es, t.fx = s.fx ++ es ∧
      ∀ c p, Effect.send c p ∈ es → c.toNat / 64 ≠ 0 ∧ c.toNat % 64 = i.code.toNat ∧ p.length ≤ 4

/-- R45, R75: a frame emits no erase and no write of a page at or above MAX_PAGES, and writes whole pages. -/
def Obligations.EmittedFlashEffectsStayInTheWritableRegion : Prop :=
  ∀ (i : Instr) (s t : State), i.wf = true → exec i s = .next t →
    ∃ es, t.fx = s.fx ++ es ∧
      (∀ p, Effect.flashErase p ∈ es → p < s.cfg.maxPages.toNat) ∧
      (∀ p b, Effect.flashWrite p b ∈ es → p < s.cfg.maxPages.toNat ∧ b.length = s.cfg.pageSize)

/-- R47, R59, R83: the frame of every instruction. No frame writes a byte of program memory or EEPROM, a configuration
slot, a fuse byte, the latched board, the configuration or a queue; all it does outside the registers is to emit. -/
def Obligations.FrameStepsTouchNoMemoryAndNoPort : Prop :=
  ∀ (i : Instr) (s t : State), exec i s = .next t →
    (∀ a, t.pm.read a = s.pm.read a) ∧ (∀ a, t.ee.read a = s.ee.read a) ∧
    t.slotBoard = s.slotBoard ∧ t.slotBitrate = s.slotBitrate ∧ t.fuse = s.fuse ∧ t.board = s.board ∧
    t.cfg = s.cfg ∧ t.rxq = s.rxq ∧ t.txq = s.txq ∧ t.events = s.events

/-- R47 (for the registers a handler does not mention, decision D24): no instruction but DATA and SET_ADDRESS writes a
Session register other than `msg`; SET_ADDRESS leaves `chunk` and every byte of the page buffer. -/
def Obligations.OtherCommandsLeaveTheSession : Prop :=
  ∀ (i : Instr) (s t : State), exec i s = .next t → (∀ f, i ≠ .data f) →
    t.chunk = s.chunk ∧ (∀ a, t.pageBuffer.read a = s.pageBuffer.read a) ∧
    ((∀ f, i ≠ .setAddress f) →
      t.phase = s.phase ∧ t.targetPage = s.targetPage ∧ t.bufferOffset = s.bufferOffset)

/-- R35, R165: the memory frame of DATA. It writes no byte of the page buffer but the four of the slot `buffer_offset`,
and none when the chunk is not accepted. -/
def Obligations.DataWritesOnlyItsSlot : Prop :=
  ∀ (f : Fields) (s t : State), exec (.data f) s = .next t →
    (∀ a, ¬ (4 * s.bufferOffset.toNat ≤ a ∧ a < 4 * s.bufferOffset.toNat + 4) →
      t.pageBuffer.read a = s.pageBuffer.read a) ∧
    (¬ s.TakesChunk f → ∀ a, t.pageBuffer.read a = s.pageBuffer.read a)

/-! ### The commands (42_commands.md) -/

/-- R190 (and R162 for DATA's own): every present command that validates its length answers a wrong one with the ERROR
reply that echoes the request payload, writes no Session register but the advanced `msg` (R135), and emits nothing else. -/
def Obligations.WrongLengthIsAnErrorAndNothingElse : Prop :=
  ∀ (i : Instr) (s : State), i.lengthWrong = true → i.present s.cfg = true → s.Accepts i.code i.fields →
    exec i s = .next (s.accepted [errorEcho i.code i.fields])

/-- R230, R19: the request of an optional command that the build leaves out is answered as an unrecognised one. -/
def Obligations.AbsentOptionalCommandsAreUnrecognised : Prop :=
  ∀ (i : Instr) (s : State), i.present s.cfg = false → s.Accepts i.code i.fields →
    exec i s = .next (s.accepted [errorEcho i.code i.fields])

/-- R230 (for code 63, decision D16): a request with an unassigned code is answered with the ERROR reply that carries its
code and its payload, and `msg` has advanced. -/
def Obligations.UnrecognisedRequestIsEchoed : Prop :=
  ∀ (code : Code) (f : Fields) (s : State), s.Accepts code f →
    exec (.unrecognizedRequest code f) s = .next (s.accepted [.send (answerByte 2 code) f.payload])

/-- R229: NO_OPERATION toggles the indicator and sends no reply; a payload is a length error, replied 0x80; it consumes
a message number either way. -/
def Obligations.NoOperationTogglesTheIndicatorSilently : Prop :=
  ∀ (f : Fields) (s : State), s.Accepts 0 f →
    (f.payload = [] → exec (.noOperation f) s = .next (s.accepted [.indicatorToggle])) ∧
    (f.payload ≠ [] → exec (.noOperation f) s = .next (s.accepted [.send 0x80 f.payload]))

/-- R191 and R109: IDENTIFY's reply packs the two nibbles, the class code and the big-endian page count, a function of the
configuration alone. -/
def Obligations.IdentifyReportsTheConfiguration : Prop :=
  ∀ (f : Fields) (s : State), s.Accepts 1 f →
    (f.payload = [] → exec (.identify f) s = .next (s.accepted [.send 0x41
      [BitVec.ofNat 8 (s.cfg.deviceType.toNat * 16 + s.cfg.protocolVersion.toNat),
       BitVec.ofNat 8 s.cfg.pageSizeClass.toNat,
       BitVec.ofNat 8 (s.cfg.maxPages.toNat / 256), BitVec.ofNat 8 (s.cfg.maxPages.toNat % 256)]])) ∧
    (f.payload ≠ [] → exec (.identify f) s = .next (s.accepted [.send 0x81 f.payload]))

/-- R192: a SET_ADDRESS whose length is not 4, whose page is not below MAX_PAGES or whose offset is not below CHUNKS is
rejected with the echoing ERROR reply; `phase` and every other Session register but `msg` stay. -/
def Obligations.SetAddressOutOfRangeIsRejected : Prop :=
  ∀ (f : Fields) (s : State), s.Accepts 2 f →
    (f.payload.length ≠ 4 → exec (.setAddress f) s = .next (s.accepted [.send 0x82 f.payload])) ∧
    (∀ p0 p1 o0 o1 : Byte, f.payload = [p0, p1, o0, o1] →
      s.cfg.maxPages.toNat ≤ p0.toNat * 256 + p1.toNat ∨ s.cfg.pageSize / 4 ≤ o0.toNat * 256 + o1.toNat →
      exec (.setAddress f) s = .next (s.accepted [.send 0x82 f.payload]))

/-- R193 (`chunk` unchanged is decision D24): an accepted SET_ADDRESS sets `target_page`, `buffer_offset` and `phase`, echoes
its four bytes, and leaves `chunk` and the page buffer. -/
def Obligations.SetAddressStartsATransfer : Prop :=
  ∀ (f : Fields) (s : State) (p0 p1 o0 o1 : Byte), s.Accepts 2 f → f.payload = [p0, p1, o0, o1] →
    p0.toNat * 256 + p1.toNat < s.cfg.maxPages.toNat → o0.toNat * 256 + o1.toNat < s.cfg.pageSize / 4 →
    exec (.setAddress f) s = .next { s.accepted [.send 0x42 [p0, p1, o0, o1]] with
      targetPage := BitVec.ofNat 16 (p0.toNat * 256 + p1.toNat)
      bufferOffset := BitVec.ofNat 16 (o0.toNat * 256 + o1.toNat)
      phase := .collectingPage }

/-- R200 (the order Send, Jump and the unmodelled delay are decision D18): START_APP emits its SUCCESS reply and then Jump;
a payload is a length error. -/
def Obligations.StartAppRepliesThenJumps : Prop :=
  ∀ (f : Fields) (s : State), s.Accepts 4 f →
    (f.payload = [] → exec (.startApp f) s = .next (s.accepted [.send 0x44 [], .jump])) ∧
    (f.payload ≠ [] → exec (.startApp f) s = .next (s.accepted [.send 0x84 f.payload]))

/-- R205 (the layout is decision D11, the page bound D12): READ_FLASH in bounds replies the four bytes of program memory
from `page*PAGE_SIZE + offset*4`. The premise on the configuration is R13's. -/
def Obligations.ReadFlashRepliesTheFourBytes : Prop :=
  ∀ (f : Fields) (s : State) (p0 p1 o0 o1 : Byte), s.cfg.wf → s.cfg.optReadFlash = true → s.Accepts 5 f →
    f.payload = [p0, p1, o0, o1] → p0.toNat * 256 + p1.toNat < s.cfg.readFlashPageLimit →
    o0.toNat * 256 + o1.toNat < s.cfg.pageSize / 4 →
    ∀ a, a = (p0.toNat * 256 + p1.toNat) * s.cfg.pageSize + (o0.toNat * 256 + o1.toNat) * 4 →
    exec (.readFlash f) s = .next (s.accepted
      [.send 0x45 [s.pm.read a, s.pm.read (a + 1), s.pm.read (a + 2), s.pm.read (a + 3)]])

/-- R205 (the page bound is decision D12): READ_FLASH out of bounds is an echoing ERROR reply. -/
def Obligations.ReadFlashOutOfBoundsIsRejected : Prop :=
  ∀ (f : Fields) (s : State) (p0 p1 o0 o1 : Byte), s.cfg.optReadFlash = true → s.Accepts 5 f →
    f.payload = [p0, p1, o0, o1] →
    s.cfg.readFlashPageLimit ≤ p0.toNat * 256 + p1.toNat ∨ s.cfg.pageSize / 4 ≤ o0.toNat * 256 + o1.toNat →
    exec (.readFlash f) s = .next (s.accepted [.send 0x85 f.payload])

/-- R208: GET_FUSEBITS replies the four fuse bytes in order; a payload is a length error; absent, it is unrecognised. -/
def Obligations.GetFusebitsRepliesTheFuseBytes : Prop :=
  ∀ (f : Fields) (s : State), s.Accepts 6 f →
    (s.cfg.optGetFusebits = true → f.payload = [] → exec (.getFusebits f) s =
      .next (s.accepted [.send 0x46 [s.fuse.b0, s.fuse.b1, s.fuse.b2, s.fuse.b3]])) ∧
    (s.cfg.optGetFusebits = false ∨ f.payload ≠ [] →
      exec (.getFusebits f) s = .next (s.accepted [.send 0x86 f.payload]))

/-- R212 (the ascending order and the untouched Session are decision D14): CHIP_ERASE emits one erase for each writable page
from 0 up, the re-enable, and its SUCCESS reply. -/
def Obligations.ChipEraseErasesEveryWritablePage : Prop :=
  ∀ (f : Fields) (s : State), s.Accepts 7 f → s.cfg.optChipErase = true → f.payload = [] →
    ∃ es, exec (.chipErase f) s = .next (s.accepted (es ++ [.rwwEnable, .send 0x47 []])) ∧
      es.length = s.cfg.maxPages.toNat ∧ ∀ p, p < s.cfg.maxPages.toNat → es[p]? = some (.flashErase p)

/-- R215 (the bound is decision D13): READ_EEPROM in bounds replies `count` bytes from `addr` in ascending order. -/
def Obligations.ReadEepromRepliesTheBytes : Prop :=
  ∀ (f : Fields) (s : State) (a0 a1 n : Byte), s.cfg.optReadEeprom = true → s.Accepts 8 f →
    f.payload = [a0, a1, n] → 1 ≤ n.toNat → n.toNat ≤ 4 → a0.toNat * 256 + a1.toNat + n.toNat ≤ s.cfg.eepromSize →
    exec (.readEeprom f) s = .next (s.accepted
      [.send 0x48 ((List.range n.toNat).map (fun k => s.ee.read (a0.toNat * 256 + a1.toNat + k)))])

/-- R215 (the bound is decision D13): a count outside 1–4, or bytes past EEPROM_SIZE, is an echoing ERROR reply. -/
def Obligations.ReadEepromOutOfBoundsIsRejected : Prop :=
  ∀ (f : Fields) (s : State) (a0 a1 n : Byte), s.cfg.optReadEeprom = true → s.Accepts 8 f → f.payload = [a0, a1, n] →
    n.toNat = 0 ∨ 4 < n.toNat ∨ s.cfg.eepromSize < a0.toNat * 256 + a1.toNat + n.toNat →
    exec (.readEeprom f) s = .next (s.accepted [.send 0x88 f.payload])

/-- R218 (the bound is decision D13): WRITE_EEPROM emits the write of its one or two data bytes and its SUCCESS reply, or, past
EEPROM_SIZE, the echoing ERROR reply alone. -/
def Obligations.WriteEepromEmitsTheWrite : Prop :=
  ∀ (f : Fields) (s : State) (a0 a1 d0 : Byte) (ds : List Byte), s.cfg.optWriteEeprom = true → s.Accepts 9 f →
    f.payload = a0 :: a1 :: d0 :: ds →
    (a0.toNat * 256 + a1.toNat + (ds.length + 1) ≤ s.cfg.eepromSize → exec (.writeEeprom f) s = .next (s.accepted
      [.eepromWrite (a0.toNat * 256 + a1.toNat) (d0 :: ds), .send 0x49 []])) ∧
    (s.cfg.eepromSize < a0.toNat * 256 + a1.toNat + (ds.length + 1) →
      exec (.writeEeprom f) s = .next (s.accepted [.send 0x89 f.payload]))

/-- R224 (that 0xFF is stored is decision D33): SET_BOARD_ID emits the write of `slot_board` and its SUCCESS reply, and `board`
stays; the multicast address is refused with the echoing ERROR reply. -/
def Obligations.SetBoardIdIsPersistedForTheNextBoot : Prop :=
  ∀ (f : Fields) (s : State) (v : Byte), s.cfg.optSetBoardId = true → s.Accepts 10 f → f.payload = [v] →
    (v ≠ s.cfg.multicastAddr →
      exec (.setBoardId f) s = .next (s.accepted [.cfgWrite .board v, .send 0x4A []])) ∧
    (v = s.cfg.multicastAddr → exec (.setBoardId f) s = .next (s.accepted [.send 0x8A [v]]))

/-- R227: SET_BITRATE emits the write of `slot_bitrate` and its SUCCESS reply for a code below 8; a code from 8 up, or
another length, is an echoing ERROR reply; absent, it is unrecognised. -/
def Obligations.SetBitrateIsPersistedForTheNextBoot : Prop :=
  ∀ (f : Fields) (s : State), s.Accepts 11 f →
    (∀ v : Byte, s.cfg.optSetBitrate = true → f.payload = [v] → v.toNat < 8 →
      exec (.setBitrate f) s = .next (s.accepted [.cfgWrite .bitrate v, .send 0x4B []])) ∧
    (∀ v : Byte, s.cfg.optSetBitrate = true → f.payload = [v] → 8 ≤ v.toNat →
      exec (.setBitrate f) s = .next (s.accepted [.send 0x8B [v]])) ∧
    (s.cfg.optSetBitrate = false ∨ f.payload.length ≠ 1 →
      exec (.setBitrate f) s = .next (s.accepted [.send 0x8B f.payload]))

/-! ### The page-buffer controller (41_page_buffer.md) -/

/-- R162: a DATA chunk that breaks a precondition sets `phase` to Idle, is an ERROR reply with the request payload, and
leaves `chunk`, `buffer_offset`, `target_page` and the page buffer; the cause is the first that fails. -/
def Obligations.DataPreconditionAbortsTheTransfer : Prop :=
  ∀ (f : Fields) (s : State), s.Accepts 3 f → ¬ s.Collects f →
    exec (.data f) s = .next { s.accepted [.send 0x83 f.payload] with phase := .idle } ∧
    handleData f s = .ok ({ s with phase := .idle },
      .error (if f.payload.length ≠ 4 then .eLen else if s.cfg.chunks ≤ s.bufferOffset.toNat then .eOffset else .ePhase)
        f.payload)

/-- R163: a start-of-group chunk is accepted whatever countdown is expected: it does what the same chunk without the flag
does where its own seven bits are the expected countdown and the phase is CollectingPage. -/
def Obligations.StartOfGroupReloadsTheCountdown : Prop :=
  ∀ (f : Fields) (s : State), s.Accepts 3 f → s.Collects f → StartsGroup f →
    exec (.data f) s = exec (.data { f with chunkCounter := BitVec.ofNat 8 (chunkCount f) })
      { s with chunk := BitVec.ofNat 8 (chunkCount f), phase := .collectingPage }

/-- R164: a chunk without the start flag whose counter is not the expected one aborts the group: `phase` Idle, an ERROR
reply with the request payload, and nothing else. -/
def Obligations.CountdownMismatchAbortsTheGroup : Prop :=
  ∀ (f : Fields) (s : State), s.Accepts 3 f → s.Collects f → ¬ StartsGroup f → f.chunkCounter ≠ s.chunk →
    exec (.data f) s = .next { s.accepted [.send 0x83 f.payload] with phase := .idle }

/-- R165 (that it is silent is decision D8): an accepted chunk that is not terminal is stored, moves to the next slot, lowers
the countdown and sends nothing; its bytes are in the page buffer in order. -/
def Obligations.NonTerminalChunkIsStoredSilently : Prop :=
  ∀ (f : Fields) (s : State), s.TakesChunk f → chunkCount f ≠ 0 →
    exec (.data f) s = .next ((s.withChunk f).accepted []) ∧
    ∀ (k : Nat) (b : Byte), f.payload[k]? = some b →
      (s.withChunk f).pageBuffer.read (4 * s.bufferOffset.toNat + k) = b

/-- R168: a terminal chunk that leaves the page not full is stored and acknowledged with an empty payload; `phase` stays, and
the slots filled stay filled. The premise on CHUNKS is notes/assumptions/13.md. -/
def Obligations.TerminalChunkOfAPartialPageIsAcknowledged : Prop :=
  ∀ (f : Fields) (s : State), s.TakesChunk f → chunkCount f = 0 → s.cfg.chunks ≤ 65535 →
    s.bufferOffset.toNat + 1 ≠ s.cfg.chunks →
    exec (.data f) s = .next ((s.withChunk f).accepted [.send 0x43 []])

/-- R166 (the payload's order is decision D10, what stays is D34): the terminal chunk that fills the page is refused when
`target_page` is protected, with the page index as payload, and no flash effect. The premise on CHUNKS is
notes/assumptions/13.md. -/
def Obligations.FullProtectedPageIsRefused : Prop :=
  ∀ (f : Fields) (s : State), s.TakesChunk f → chunkCount f = 0 → s.cfg.chunks ≤ 65535 →
    s.bufferOffset.toNat + 1 = s.cfg.chunks → s.cfg.maxPages.toNat ≤ s.targetPage.toNat →
    exec (.data f) s = .next ((s.withChunk f).accepted [.send 0x83
      [BitVec.ofNat 8 (s.targetPage.toNat / 256), BitVec.ofNat 8 (s.targetPage.toNat % 256)]])

/-- R167 (the byte mapping is decision D20, the payload's order D10): the terminal chunk that fills a writable page commits it:
erase, write of all PAGE_SIZE bytes of the page buffer, re-enable, SUCCESS with the committed page; then the next page
from slot 0, the phase unchanged. The premise on CHUNKS is notes/assumptions/13.md. -/
def Obligations.FullPageIsCommitted : Prop :=
  ∀ (f : Fields) (s : State), s.TakesChunk f → chunkCount f = 0 → s.cfg.chunks ≤ 65535 →
    s.bufferOffset.toNat + 1 = s.cfg.chunks → s.targetPage.toNat < s.cfg.maxPages.toNat →
    exec (.data f) s = .next { (s.withChunk f).accepted
        [.flashErase s.targetPage.toNat,
         .flashWrite s.targetPage.toNat ((List.range s.cfg.pageSize).map (s.withChunk f).pageBuffer.read),
         .rwwEnable,
         .send 0x43 [BitVec.ofNat 8 (s.targetPage.toNat / 256), BitVec.ofNat 8 (s.targetPage.toNat % 256)]] with
      bufferOffset := 0
      targetPage := BitVec.ofNat 16 (s.targetPage.toNat + 1) }

/-- R169 (an inference the spec marks as its own, from R160–R168): after a SET_ADDRESS to slot 0 of a writable page, CHUNKS
accepted chunks in any grouping, the last one terminal, leave the page buffer equal to the payloads in order of arrival,
and exactly one erase and one write are emitted, of that page with those bytes. -/
def Obligations.ChunksInOrderAssembleAndCommitThePage : Prop :=
  ∀ (s t : State) (fs : List Fields) (last : Fields), s.cfg.wf → s.fx = [] → s.bufferOffset = 0 →
    s.targetPage.toNat < s.cfg.maxPages.toNat → (fs ++ [last]).length = s.cfg.chunks → chunkCount last = 0 →
    s.feedChunks (fs ++ [last]) = some t →
    (List.range s.cfg.pageSize).map t.pageBuffer.read = (fs ++ [last]).flatMap Fields.payload ∧
    t.fx.filter Effect.isFlash =
      [.flashErase s.targetPage.toNat, .flashWrite s.targetPage.toNat ((fs ++ [last]).flatMap Fields.payload)] ∧
    t.bufferOffset = 0 ∧ t.targetPage.toNat = s.targetPage.toNat + 1

/-! ### Steps: the sequencer, its effects and its environment (10_state.md, 43, 70) -/

/-- R130, R41: when the BLPSM is to move at POLL and the head of `rxq` decodes, the step pops it and is that instruction's
`exec` (around it the model only takes the move off `events`, notes/assumptions/6.md). -/
def Obligations.StepRunsTheDecodedFrame : Prop :=
  ∀ (s : State) (d : RxFrame) (rest : List RxFrame) (i : Instr), s.nextEvent = .run → s.ctl = .poll →
    s.sup ≠ .runningApplication → s.rxq = d :: rest → decode d = .ok i →
    step s = exec i { s with rxq := rest, events := s.events.tail }

/-- R130, R306, R320 (that a wait is a step that changes nothing is the model's choice, notes/assumptions/7.md): with `rxq`
empty the receive returns nothing and the BLPSM waits. -/
def Obligations.EmptyReceiveQueueIsAWait : Prop :=
  ∀ s : State, s.nextEvent = .run → s.ctl = .poll → s.rxq = [] → step s = .next { s with events := s.events.tail }

/-- R41, R246, R320 (that the missing step is the fault `halted` is the model's choice, notes/assumptions/8.md): from HALT the
BLPSM has no step. -/
def Obligations.HaltHasNoStep : Prop :=
  ∀ s : State, s.nextEvent = .run → s.ctl = .halt → step s = .fault .halted

/-- R301 (that the busy wait is a step that changes nothing is the model's choice, notes/assumptions/7.md): `Send` is
performed iff a transmit slot is free, and appends the reply to `txq`. -/
def Obligations.SendWaitsForAFreeSlot : Prop :=
  ∀ (s : State) (c : Byte) (p : List Byte) (rest : List Effect), s.nextEvent = .run → s.ctl = .exec →
    s.fx = .send c p :: rest →
    (s.txq.length < s.cfg.txSlots → step s = .next { s with
      txq := s.txq ++ [⟨c, p⟩], fx := rest, ctl := if rest = [] then .poll else .exec, events := s.events.tail }) ∧
    (s.cfg.txSlots ≤ s.txq.length → step s = .next { s with events := s.events.tail })

/-- R302 (success is decision D19; that the BLPSM's next move performs it
is the model's choice, notes/assumptions/14.md): performing `FlashErase(p)` makes every byte of page p
ERASED_BYTE and leaves every other byte and register. -/
def Obligations.FlashEraseErasesThePage : Prop :=
  ∀ (s : State) (p : Nat) (rest : List Effect), s.nextEvent = .run → s.ctl = .exec → s.fx = .flashErase p :: rest →
    p < s.cfg.flashPages →
    ∃ pm, step s = .next { s with
        pm := pm, fx := rest, ctl := if rest = [] then .poll else .exec, events := s.events.tail } ∧
      ∀ a, pm.read a = if p * s.cfg.pageSize ≤ a ∧ a < (p + 1) * s.cfg.pageSize then s.cfg.erasedByte else s.pm.read a

/-- R302 (success is decision D19, the mapping D20; that the BLPSM's next move performs it
is the model's choice, notes/assumptions/14.md): performing `FlashWrite(p, b)` makes byte
`p*PAGE_SIZE + j` equal to `b[j]` and leaves every other byte and register. -/
def Obligations.FlashWriteWritesThePage : Prop :=
  ∀ (s : State) (p : Nat) (b : List Byte) (rest : List Effect), s.nextEvent = .run → s.ctl = .exec →
    s.fx = .flashWrite p b :: rest → p < s.cfg.flashPages → b.length = s.cfg.pageSize →
    ∃ pm, step s = .next { s with
        pm := pm, fx := rest, ctl := if rest = [] then .poll else .exec, events := s.events.tail } ∧
      (∀ j v, b[j]? = some v → pm.read (p * s.cfg.pageSize + j) = v) ∧
      ∀ a, ¬ (p * s.cfg.pageSize ≤ a ∧ a < (p + 1) * s.cfg.pageSize) → pm.read a = s.pm.read a

/-- R302 (success is decision D19; that the BLPSM's next move performs it
is the model's choice, notes/assumptions/14.md): performing `EepromWrite(a, d)` makes EE byte `a+k` equal to
`d[k]` and leaves every other byte and register. -/
def Obligations.EepromWriteWritesTheBytes : Prop :=
  ∀ (s : State) (a : Nat) (b : List Byte) (rest : List Effect), s.nextEvent = .run → s.ctl = .exec →
    s.fx = .eepromWrite a b :: rest → a + b.length ≤ s.cfg.eepromSize →
    ∃ ee, step s = .next { s with
        ee := ee, fx := rest, ctl := if rest = [] then .poll else .exec, events := s.events.tail } ∧
      (∀ j v, b[j]? = some v → ee.read (a + j) = v) ∧
      ∀ x, ¬ (a ≤ x ∧ x < a + b.length) → ee.read x = s.ee.read x

/-- R302 (success is decision D19; that the BLPSM's next move performs it
is the model's choice, notes/assumptions/14.md): `CfgWrite` sets its slot and nothing else; `RwwEnable` and
the indicator effects change no modelled state. -/
def Obligations.ConfigurationAndSilentEffects : Prop :=
  ∀ (s : State) (rest : List Effect), s.nextEvent = .run → s.ctl = .exec →
    (∀ v, s.fx = .cfgWrite .board v :: rest → step s = .next { s with
      slotBoard := v, fx := rest, ctl := if rest = [] then .poll else .exec, events := s.events.tail }) ∧
    (∀ v, s.fx = .cfgWrite .bitrate v :: rest → step s = .next { s with
      slotBitrate := v, fx := rest, ctl := if rest = [] then .poll else .exec, events := s.events.tail }) ∧
    (s.fx = .rwwEnable :: rest ∨ s.fx = .indicatorToggle :: rest ∨ s.fx = .indicatorOff :: rest → step s = .next { s with
      fx := rest, ctl := if rest = [] then .poll else .exec, events := s.events.tail })

/-- R303, R41, R245: performing `Jump` makes the supervisor RUNNING_APPLICATION and the control state HALT, and changes no
Session register, memory or queue. -/
def Obligations.JumpHandsOverAndHalts : Prop :=
  ∀ (s : State) (rest : List Effect), s.nextEvent = .run → s.ctl = .exec → s.fx = .jump :: rest →
    step s = .next { s with sup := .runningApplication, ctl := .halt, fx := rest, events := s.events.tail }

/-- R243, R305 (decision D6): the grace period may run out exactly while the supervisor waits with the timer armed at POLL,
whatever `rxq` holds; then the timer is EXPIRED, the supervisor RUNNING_APPLICATION, and IndicatorOff and Jump are pending.
At any other time the move does nothing (notes/assumptions/18.md). -/
def Obligations.GraceTimerExpiryLeavesTheBootloader : Prop :=
  ∀ s : State, s.nextEvent = .expire →
    (s.sup = .waitingForFirstFrame → s.timer = .armed → s.ctl = .poll → step s = .next { s with
      timer := .expired, sup := .runningApplication, fx := s.fx ++ [.indicatorOff, .jump], ctl := .exec
      events := s.events.tail }) ∧
    (s.sup ≠ .waitingForFirstFrame ∨ s.timer ≠ .armed ∨ s.ctl ≠ .poll →
      step s = .next { s with events := s.events.tail })

/-- R304 (loss at a full queue is decision D22, that it is lost and not held back notes/assumptions/17.md), R50: an arriving
frame goes to the end of `rxq` if there is room and is lost otherwise; a delivery that is no frame is refused (R101, D36,
notes/assumptions/9.md). -/
def Obligations.ArrivalAppendsOrIsLost : Prop :=
  ∀ (s : State) (d : RxFrame), s.nextEvent = .arrive d →
    (d.wf = true → s.rxq.length < s.cfg.rxDepth →
      step s = .next { s with rxq := s.rxq ++ [d], events := s.events.tail }) ∧
    (d.wf = true → s.cfg.rxDepth ≤ s.rxq.length → step s = .next { s with events := s.events.tail }) ∧
    (d.wf = false → ∃ e, step s = .refused (.malformedFrame e))

/-- R304: Transport takes the head of `txq` and nothing else, at any control state (after a Jump too: decision D18). That the
move changes nothing when `txq` is empty is the model's choice (DESIGN CHOICE, notes/assumptions/18.md). -/
def Obligations.TransmissionTakesTheHead : Prop :=
  ∀ s : State, s.nextEvent = .transmit →
    (∀ r rest, s.txq = r :: rest → step s = .next { s with txq := rest, events := s.events.tail }) ∧
    (s.txq = [] → step s = .next { s with events := s.events.tail })

/-- R290, R37, R293 (the values the spec's source does not give are decision D15): a power cycle gives the reset state of this
build with the memories, slots and fuses as they were, `board` latched from the slot, and the drawn bytes in the page
buffer (notes/assumptions/3.md). That the application has written nothing in between is notes/assumptions/16.md; that a
power cycle may come while effects are pending, and drops them, is notes/assumptions/23.md (both the model's choice). -/
def Obligations.PowerCycleRestoresTheResetValues : Prop :=
  ∀ (s : State) (pb : List Byte), s.nextEvent = .powerCycle pb →
    ∃ buffer : Memory,
      step s = .next {
        cfg := s.cfg, msg := 0, phase := .idle, targetPage := 0, bufferOffset := 0, pageBuffer := buffer, chunk := 0
        board := if s.slotBoard.toNat = 255 then s.cfg.buildBoardId else s.slotBoard
        sup := .waitingForFirstFrame, timer := .armed, ctl := .poll, fx := [], rxq := [], txq := []
        pm := s.pm, ee := s.ee, slotBoard := s.slotBoard, slotBitrate := s.slotBitrate, fuse := s.fuse
        events := s.events.tail } ∧
      buffer.Within s.cfg.pageSize ∧
      ∀ j b, pb[j]? = some b → j < s.cfg.pageSize → buffer.read j = b

/-! ### The whole machine -/

/-- R290: reset, for every build the spec admits and any launch inputs that fit it, meets the invariant, and so does the
model's own `State.reset` (whose build and launch are the model's choice, notes/assumptions/1.md to 5.md). -/
def Obligations.ResetMeetsTheInvariant : Prop :=
  (∀ (c : Config) (l : Launch), c.wf → l.Fits c → (State.resetWith c l).Inv) ∧ State.reset.Inv

/-- R36, R42, R44, R45, R50, R51, R101, R248 together: from every state that meets the invariant, every move of every agent
gives a state that meets it. -/
def Obligations.EveryStepKeepsTheInvariant : Prop :=
  ∀ s t : State, s.Inv → step s = .next t → t.Inv

/-- R266 (what the model stops at is its own choice, notes/assumptions/8.md, 9.md and 12.md): from a state that meets the
invariant the only fault is being asked for a step at HALT, and the only refusal is of a delivery that is no frame. -/
def Obligations.NothingIsFatalDuringOperation : Prop :=
  ∀ s : State, s.Inv →
    (∀ e, step s = .fault e → e = .halted ∧ s.ctl = .halt ∧ s.nextEvent = .run) ∧
    (∀ r, step s = .refused r → ∃ d e, s.nextEvent = .arrive d ∧ d.wf = false ∧ r = .malformedFrame e)

/-- R240: but for a new power cycle, the supervisor makes only its three transitions, each at its event: the visible frame
(R242), the expiry (R243), the Jump performed in ACTIVE (R245). -/
def Obligations.SupervisorMakesOnlyItsThreeTransitions : Prop :=
  ∀ s t : State, s.Inv → step s = .next t → (∀ pb, s.nextEvent ≠ .powerCycle pb) →
    t.sup = s.sup ∨
    (s.sup = .waitingForFirstFrame ∧ t.sup = .active ∧ s.nextEvent = .run ∧ s.ctl = .poll ∧ t.timer = .stopped ∧
      ∃ d rest i, s.rxq = d :: rest ∧ decode d = .ok i ∧ s.Sees i.code i.fields.address) ∨
    (s.sup = .waitingForFirstFrame ∧ t.sup = .runningApplication ∧ s.nextEvent = .expire ∧ t.timer = .expired) ∨
    (s.sup = .active ∧ t.sup = .runningApplication ∧ s.nextEvent = .run ∧ s.ctl = .exec ∧ s.fx.head? = some .jump)

/-- R75, R74, for what the BLPSM does: over any run, under any moves of the environment, from any state that meets the
invariant, no byte of the protected region of program memory changes. A run may pass a Jump and the power cycle after it:
that the application writes nothing there is the model's choice, not the spec's (R305 lets it do anything; DESIGN CHOICE,
unsafe for this claim, notes/assumptions/16.md). Likewise the power cycle may drop pending effects, each effect whole or
not at all (notes/assumptions/23.md). -/
def Obligations.ProtectedRegionNeverChanges : Prop :=
  ∀ (n : Nat) (s t : State), s.Inv → core.run n s = .next t →
    ∀ a, s.cfg.maxPages.toNat * s.cfg.pageSize ≤ a → t.pm.read a = s.pm.read a

/-- R300 and R84 with decision D2, under the model's choice of notes/assumptions/14.md (DESIGN CHOICE, unsafe; success is
decision D19): that the BLPSM's next move performs the pending effect, hence one a step, where R302 leaves any delay and
R306 guarantees nothing. With the BLPSM alone moving (notes/assumptions/6.md) and room in `txq` for the frame's replies,
the pending effects are then all performed: nothing is pending, `txq` holds the replies behind what it held, in order,
and no frame was taken and no Session register written meanwhile. -/
def Obligations.PendingEffectsCompleteInOrder : Prop :=
  ∀ s : State, s.Inv → s.ctl = .exec → s.events = [] →
    s.txq.length + (s.fx.filter Effect.isSend).length ≤ s.cfg.txSlots →
    ∃ t, core.run s.fx.length s = .next t ∧ t.fx = [] ∧
      t.ctl = (if s.fx.getLast? = some .jump then .halt else .poll) ∧
      t.txq.map (fun r => Effect.send r.command r.payload) =
        s.txq.map (fun r => Effect.send r.command r.payload) ++ s.fx.filter Effect.isSend ∧
      t.rxq = s.rxq ∧ t.msg = s.msg ∧ t.phase = s.phase ∧ t.targetPage = s.targetPage ∧
      t.bufferOffset = s.bufferOffset ∧ t.chunk = s.chunk ∧ t.pageBuffer = s.pageBuffer ∧ t.board = s.board

/-- R167, R302, R87 (the mapping is decision D20, success D19; one effect a step is the model's choice,
notes/assumptions/14.md): performing a commit's three flash effects, with no other agent moving, leaves the page holding
exactly the bytes committed, so that a READ_FLASH taken afterwards reads them, and leaves every byte outside the page. -/
def Obligations.CommittedPageReadsBack : Prop :=
  ∀ (s : State) (p : Nat) (b : List Byte) (rest : List Effect), s.ctl = .exec → s.events = [] →
    s.fx = .flashErase p :: .flashWrite p b :: .rwwEnable :: rest → p < s.cfg.flashPages → b.length = s.cfg.pageSize →
    ∃ t, core.run 3 s = .next t ∧ t.fx = rest ∧
      (List.range s.cfg.pageSize).map (fun j => t.pm.read (p * s.cfg.pageSize + j)) = b ∧
      ∀ a, ¬ (p * s.cfg.pageSize ≤ a ∧ a < (p + 1) * s.cfg.pageSize) → t.pm.read a = s.pm.read a
end

