-- ==== Sys2Proof/Laws/State.lean ====
section
/-! SUPPORT. What each named update of the state leaves in each field: the update's own value, or the old one. -/

namespace Sys2Proof.Machine

/-! `State.emit` -/

@[simp] theorem State.emit_cfg (s : State) (es : List Effect) : (s.emit es).cfg = s.cfg := rfl
@[simp] theorem State.emit_msg (s : State) (es : List Effect) : (s.emit es).msg = s.msg := rfl
@[simp] theorem State.emit_phase (s : State) (es : List Effect) : (s.emit es).phase = s.phase := rfl
@[simp] theorem State.emit_targetPage (s : State) (es : List Effect) : (s.emit es).targetPage = s.targetPage := rfl
@[simp] theorem State.emit_bufferOffset (s : State) (es : List Effect) : (s.emit es).bufferOffset = s.bufferOffset := rfl
@[simp] theorem State.emit_pageBuffer (s : State) (es : List Effect) : (s.emit es).pageBuffer = s.pageBuffer := rfl
@[simp] theorem State.emit_chunk (s : State) (es : List Effect) : (s.emit es).chunk = s.chunk := rfl
@[simp] theorem State.emit_board (s : State) (es : List Effect) : (s.emit es).board = s.board := rfl
@[simp] theorem State.emit_sup (s : State) (es : List Effect) : (s.emit es).sup = s.sup := rfl
@[simp] theorem State.emit_timer (s : State) (es : List Effect) : (s.emit es).timer = s.timer := rfl
@[simp] theorem State.emit_ctl (s : State) (es : List Effect) : (s.emit es).ctl = s.ctl := rfl
@[simp] theorem State.emit_fx (s : State) (es : List Effect) : (s.emit es).fx = s.fx ++ es := rfl
@[simp] theorem State.emit_rxq (s : State) (es : List Effect) : (s.emit es).rxq = s.rxq := rfl
@[simp] theorem State.emit_txq (s : State) (es : List Effect) : (s.emit es).txq = s.txq := rfl
@[simp] theorem State.emit_pm (s : State) (es : List Effect) : (s.emit es).pm = s.pm := rfl
@[simp] theorem State.emit_ee (s : State) (es : List Effect) : (s.emit es).ee = s.ee := rfl
@[simp] theorem State.emit_slotBoard (s : State) (es : List Effect) : (s.emit es).slotBoard = s.slotBoard := rfl
@[simp] theorem State.emit_slotBitrate (s : State) (es : List Effect) : (s.emit es).slotBitrate = s.slotBitrate := rfl
@[simp] theorem State.emit_fuse (s : State) (es : List Effect) : (s.emit es).fuse = s.fuse := rfl
@[simp] theorem State.emit_events (s : State) (es : List Effect) : (s.emit es).events = s.events := rfl

/-! `State.reply` -/

@[simp] theorem State.reply_cfg (s : State) (k : Byte) (c : Code) (p : List Byte) : (s.reply k c p).cfg = s.cfg := rfl
@[simp] theorem State.reply_msg (s : State) (k : Byte) (c : Code) (p : List Byte) : (s.reply k c p).msg = s.msg := rfl
@[simp] theorem State.reply_phase (s : State) (k : Byte) (c : Code) (p : List Byte) : (s.reply k c p).phase = s.phase := rfl
@[simp] theorem State.reply_targetPage (s : State) (k : Byte) (c : Code) (p : List Byte) : (s.reply k c p).targetPage = s.targetPage := rfl
@[simp] theorem State.reply_bufferOffset (s : State) (k : Byte) (c : Code) (p : List Byte) : (s.reply k c p).bufferOffset = s.bufferOffset := rfl
@[simp] theorem State.reply_pageBuffer (s : State) (k : Byte) (c : Code) (p : List Byte) : (s.reply k c p).pageBuffer = s.pageBuffer := rfl
@[simp] theorem State.reply_chunk (s : State) (k : Byte) (c : Code) (p : List Byte) : (s.reply k c p).chunk = s.chunk := rfl
@[simp] theorem State.reply_board (s : State) (k : Byte) (c : Code) (p : List Byte) : (s.reply k c p).board = s.board := rfl
@[simp] theorem State.reply_sup (s : State) (k : Byte) (c : Code) (p : List Byte) : (s.reply k c p).sup = s.sup := rfl
@[simp] theorem State.reply_timer (s : State) (k : Byte) (c : Code) (p : List Byte) : (s.reply k c p).timer = s.timer := rfl
@[simp] theorem State.reply_ctl (s : State) (k : Byte) (c : Code) (p : List Byte) : (s.reply k c p).ctl = s.ctl := rfl
@[simp] theorem State.reply_fx (s : State) (k : Byte) (c : Code) (p : List Byte) : (s.reply k c p).fx = s.fx ++ [.send (replyCommand k c) p] := rfl
@[simp] theorem State.reply_rxq (s : State) (k : Byte) (c : Code) (p : List Byte) : (s.reply k c p).rxq = s.rxq := rfl
@[simp] theorem State.reply_txq (s : State) (k : Byte) (c : Code) (p : List Byte) : (s.reply k c p).txq = s.txq := rfl
@[simp] theorem State.reply_pm (s : State) (k : Byte) (c : Code) (p : List Byte) : (s.reply k c p).pm = s.pm := rfl
@[simp] theorem State.reply_ee (s : State) (k : Byte) (c : Code) (p : List Byte) : (s.reply k c p).ee = s.ee := rfl
@[simp] theorem State.reply_slotBoard (s : State) (k : Byte) (c : Code) (p : List Byte) : (s.reply k c p).slotBoard = s.slotBoard := rfl
@[simp] theorem State.reply_slotBitrate (s : State) (k : Byte) (c : Code) (p : List Byte) : (s.reply k c p).slotBitrate = s.slotBitrate := rfl
@[simp] theorem State.reply_fuse (s : State) (k : Byte) (c : Code) (p : List Byte) : (s.reply k c p).fuse = s.fuse := rfl
@[simp] theorem State.reply_events (s : State) (k : Byte) (c : Code) (p : List Byte) : (s.reply k c p).events = s.events := rfl

/-! `State.takeError` -/

@[simp] theorem State.takeError_cfg (s : State) (c : Code) (p : List Byte) : (s.takeError c p).cfg = s.cfg := rfl
@[simp] theorem State.takeError_msg (s : State) (c : Code) (p : List Byte) : (s.takeError c p).msg = s.msg := rfl
@[simp] theorem State.takeError_phase (s : State) (c : Code) (p : List Byte) : (s.takeError c p).phase = s.phase := rfl
@[simp] theorem State.takeError_targetPage (s : State) (c : Code) (p : List Byte) : (s.takeError c p).targetPage = s.targetPage := rfl
@[simp] theorem State.takeError_bufferOffset (s : State) (c : Code) (p : List Byte) : (s.takeError c p).bufferOffset = s.bufferOffset := rfl
@[simp] theorem State.takeError_pageBuffer (s : State) (c : Code) (p : List Byte) : (s.takeError c p).pageBuffer = s.pageBuffer := rfl
@[simp] theorem State.takeError_chunk (s : State) (c : Code) (p : List Byte) : (s.takeError c p).chunk = s.chunk := rfl
@[simp] theorem State.takeError_board (s : State) (c : Code) (p : List Byte) : (s.takeError c p).board = s.board := rfl
@[simp] theorem State.takeError_sup (s : State) (c : Code) (p : List Byte) : (s.takeError c p).sup = s.sup := rfl
@[simp] theorem State.takeError_timer (s : State) (c : Code) (p : List Byte) : (s.takeError c p).timer = s.timer := rfl
@[simp] theorem State.takeError_ctl (s : State) (c : Code) (p : List Byte) : (s.takeError c p).ctl = s.ctl := rfl
@[simp] theorem State.takeError_fx (s : State) (c : Code) (p : List Byte) : (s.takeError c p).fx = s.fx ++ [.send (replyCommand kindError c) p] := rfl
@[simp] theorem State.takeError_rxq (s : State) (c : Code) (p : List Byte) : (s.takeError c p).rxq = s.rxq := rfl
@[simp] theorem State.takeError_txq (s : State) (c : Code) (p : List Byte) : (s.takeError c p).txq = s.txq := rfl
@[simp] theorem State.takeError_pm (s : State) (c : Code) (p : List Byte) : (s.takeError c p).pm = s.pm := rfl
@[simp] theorem State.takeError_ee (s : State) (c : Code) (p : List Byte) : (s.takeError c p).ee = s.ee := rfl
@[simp] theorem State.takeError_slotBoard (s : State) (c : Code) (p : List Byte) : (s.takeError c p).slotBoard = s.slotBoard := rfl
@[simp] theorem State.takeError_slotBitrate (s : State) (c : Code) (p : List Byte) : (s.takeError c p).slotBitrate = s.slotBitrate := rfl
@[simp] theorem State.takeError_fuse (s : State) (c : Code) (p : List Byte) : (s.takeError c p).fuse = s.fuse := rfl
@[simp] theorem State.takeError_events (s : State) (c : Code) (p : List Byte) : (s.takeError c p).events = s.events := rfl

/-! `State.settle` -/

@[simp] theorem State.settle_cfg (s : State) : (s.settle).cfg = s.cfg := rfl
@[simp] theorem State.settle_msg (s : State) : (s.settle).msg = s.msg := rfl
@[simp] theorem State.settle_phase (s : State) : (s.settle).phase = s.phase := rfl
@[simp] theorem State.settle_targetPage (s : State) : (s.settle).targetPage = s.targetPage := rfl
@[simp] theorem State.settle_bufferOffset (s : State) : (s.settle).bufferOffset = s.bufferOffset := rfl
@[simp] theorem State.settle_pageBuffer (s : State) : (s.settle).pageBuffer = s.pageBuffer := rfl
@[simp] theorem State.settle_chunk (s : State) : (s.settle).chunk = s.chunk := rfl
@[simp] theorem State.settle_board (s : State) : (s.settle).board = s.board := rfl
@[simp] theorem State.settle_sup (s : State) : (s.settle).sup = s.sup := rfl
@[simp] theorem State.settle_timer (s : State) : (s.settle).timer = s.timer := rfl
@[simp] theorem State.settle_ctl (s : State) : (s.settle).ctl = if s.fx.isEmpty then .poll else .exec := rfl
@[simp] theorem State.settle_fx (s : State) : (s.settle).fx = s.fx := rfl
@[simp] theorem State.settle_rxq (s : State) : (s.settle).rxq = s.rxq := rfl
@[simp] theorem State.settle_txq (s : State) : (s.settle).txq = s.txq := rfl
@[simp] theorem State.settle_pm (s : State) : (s.settle).pm = s.pm := rfl
@[simp] theorem State.settle_ee (s : State) : (s.settle).ee = s.ee := rfl
@[simp] theorem State.settle_slotBoard (s : State) : (s.settle).slotBoard = s.slotBoard := rfl
@[simp] theorem State.settle_slotBitrate (s : State) : (s.settle).slotBitrate = s.slotBitrate := rfl
@[simp] theorem State.settle_fuse (s : State) : (s.settle).fuse = s.fuse := rfl
@[simp] theorem State.settle_events (s : State) : (s.settle).events = s.events := rfl

/-! `State.firstFrame` -/

@[simp] theorem State.firstFrame_cfg (s : State) : (s.firstFrame).cfg = s.cfg := rfl
@[simp] theorem State.firstFrame_msg (s : State) : (s.firstFrame).msg = s.msg := rfl
@[simp] theorem State.firstFrame_phase (s : State) : (s.firstFrame).phase = s.phase := rfl
@[simp] theorem State.firstFrame_targetPage (s : State) : (s.firstFrame).targetPage = s.targetPage := rfl
@[simp] theorem State.firstFrame_bufferOffset (s : State) : (s.firstFrame).bufferOffset = s.bufferOffset := rfl
@[simp] theorem State.firstFrame_pageBuffer (s : State) : (s.firstFrame).pageBuffer = s.pageBuffer := rfl
@[simp] theorem State.firstFrame_chunk (s : State) : (s.firstFrame).chunk = s.chunk := rfl
@[simp] theorem State.firstFrame_board (s : State) : (s.firstFrame).board = s.board := rfl
@[simp] theorem State.firstFrame_sup (s : State) : (s.firstFrame).sup = if s.sup = .waitingForFirstFrame then .active else s.sup := rfl
@[simp] theorem State.firstFrame_timer (s : State) : (s.firstFrame).timer = if s.sup = .waitingForFirstFrame then .stopped else s.timer := rfl
@[simp] theorem State.firstFrame_ctl (s : State) : (s.firstFrame).ctl = s.ctl := rfl
@[simp] theorem State.firstFrame_fx (s : State) : (s.firstFrame).fx = s.fx := rfl
@[simp] theorem State.firstFrame_rxq (s : State) : (s.firstFrame).rxq = s.rxq := rfl
@[simp] theorem State.firstFrame_txq (s : State) : (s.firstFrame).txq = s.txq := rfl
@[simp] theorem State.firstFrame_pm (s : State) : (s.firstFrame).pm = s.pm := rfl
@[simp] theorem State.firstFrame_ee (s : State) : (s.firstFrame).ee = s.ee := rfl
@[simp] theorem State.firstFrame_slotBoard (s : State) : (s.firstFrame).slotBoard = s.slotBoard := rfl
@[simp] theorem State.firstFrame_slotBitrate (s : State) : (s.firstFrame).slotBitrate = s.slotBitrate := rfl
@[simp] theorem State.firstFrame_fuse (s : State) : (s.firstFrame).fuse = s.fuse := rfl
@[simp] theorem State.firstFrame_events (s : State) : (s.firstFrame).events = s.events := rfl

/-! `State.advance` -/

@[simp] theorem State.advance_cfg (s : State) : (s.advance).cfg = s.cfg := rfl
@[simp] theorem State.advance_msg (s : State) : (s.advance).msg = nextNumber s.msg := rfl
@[simp] theorem State.advance_phase (s : State) : (s.advance).phase = s.phase := rfl
@[simp] theorem State.advance_targetPage (s : State) : (s.advance).targetPage = s.targetPage := rfl
@[simp] theorem State.advance_bufferOffset (s : State) : (s.advance).bufferOffset = s.bufferOffset := rfl
@[simp] theorem State.advance_pageBuffer (s : State) : (s.advance).pageBuffer = s.pageBuffer := rfl
@[simp] theorem State.advance_chunk (s : State) : (s.advance).chunk = s.chunk := rfl
@[simp] theorem State.advance_board (s : State) : (s.advance).board = s.board := rfl
@[simp] theorem State.advance_sup (s : State) : (s.advance).sup = s.sup := rfl
@[simp] theorem State.advance_timer (s : State) : (s.advance).timer = s.timer := rfl
@[simp] theorem State.advance_ctl (s : State) : (s.advance).ctl = s.ctl := rfl
@[simp] theorem State.advance_fx (s : State) : (s.advance).fx = s.fx := rfl
@[simp] theorem State.advance_rxq (s : State) : (s.advance).rxq = s.rxq := rfl
@[simp] theorem State.advance_txq (s : State) : (s.advance).txq = s.txq := rfl
@[simp] theorem State.advance_pm (s : State) : (s.advance).pm = s.pm := rfl
@[simp] theorem State.advance_ee (s : State) : (s.advance).ee = s.ee := rfl
@[simp] theorem State.advance_slotBoard (s : State) : (s.advance).slotBoard = s.slotBoard := rfl
@[simp] theorem State.advance_slotBitrate (s : State) : (s.advance).slotBitrate = s.slotBitrate := rfl
@[simp] theorem State.advance_fuse (s : State) : (s.advance).fuse = s.fuse := rfl
@[simp] theorem State.advance_events (s : State) : (s.advance).events = s.events := rfl

/-! `State.retire` -/

@[simp] theorem State.retire_cfg (s : State) (rest : List Effect) : (s.retire rest).cfg = s.cfg := rfl
@[simp] theorem State.retire_msg (s : State) (rest : List Effect) : (s.retire rest).msg = s.msg := rfl
@[simp] theorem State.retire_phase (s : State) (rest : List Effect) : (s.retire rest).phase = s.phase := rfl
@[simp] theorem State.retire_targetPage (s : State) (rest : List Effect) : (s.retire rest).targetPage = s.targetPage := rfl
@[simp] theorem State.retire_bufferOffset (s : State) (rest : List Effect) : (s.retire rest).bufferOffset = s.bufferOffset := rfl
@[simp] theorem State.retire_pageBuffer (s : State) (rest : List Effect) : (s.retire rest).pageBuffer = s.pageBuffer := rfl
@[simp] theorem State.retire_chunk (s : State) (rest : List Effect) : (s.retire rest).chunk = s.chunk := rfl
@[simp] theorem State.retire_board (s : State) (rest : List Effect) : (s.retire rest).board = s.board := rfl
@[simp] theorem State.retire_sup (s : State) (rest : List Effect) : (s.retire rest).sup = s.sup := rfl
@[simp] theorem State.retire_timer (s : State) (rest : List Effect) : (s.retire rest).timer = s.timer := rfl
@[simp] theorem State.retire_ctl (s : State) (rest : List Effect) : (s.retire rest).ctl = if rest.isEmpty then .poll else .exec := rfl
@[simp] theorem State.retire_fx (s : State) (rest : List Effect) : (s.retire rest).fx = rest := rfl
@[simp] theorem State.retire_rxq (s : State) (rest : List Effect) : (s.retire rest).rxq = s.rxq := rfl
@[simp] theorem State.retire_txq (s : State) (rest : List Effect) : (s.retire rest).txq = s.txq := rfl
@[simp] theorem State.retire_pm (s : State) (rest : List Effect) : (s.retire rest).pm = s.pm := rfl
@[simp] theorem State.retire_ee (s : State) (rest : List Effect) : (s.retire rest).ee = s.ee := rfl
@[simp] theorem State.retire_slotBoard (s : State) (rest : List Effect) : (s.retire rest).slotBoard = s.slotBoard := rfl
@[simp] theorem State.retire_slotBitrate (s : State) (rest : List Effect) : (s.retire rest).slotBitrate = s.slotBitrate := rfl
@[simp] theorem State.retire_fuse (s : State) (rest : List Effect) : (s.retire rest).fuse = s.fuse := rfl
@[simp] theorem State.retire_events (s : State) (rest : List Effect) : (s.retire rest).events = s.events := rfl

/-! `State.dropEvent` -/

@[simp] theorem State.dropEvent_cfg (s : State) : (s.dropEvent).cfg = s.cfg := rfl
@[simp] theorem State.dropEvent_msg (s : State) : (s.dropEvent).msg = s.msg := rfl
@[simp] theorem State.dropEvent_phase (s : State) : (s.dropEvent).phase = s.phase := rfl
@[simp] theorem State.dropEvent_targetPage (s : State) : (s.dropEvent).targetPage = s.targetPage := rfl
@[simp] theorem State.dropEvent_bufferOffset (s : State) : (s.dropEvent).bufferOffset = s.bufferOffset := rfl
@[simp] theorem State.dropEvent_pageBuffer (s : State) : (s.dropEvent).pageBuffer = s.pageBuffer := rfl
@[simp] theorem State.dropEvent_chunk (s : State) : (s.dropEvent).chunk = s.chunk := rfl
@[simp] theorem State.dropEvent_board (s : State) : (s.dropEvent).board = s.board := rfl
@[simp] theorem State.dropEvent_sup (s : State) : (s.dropEvent).sup = s.sup := rfl
@[simp] theorem State.dropEvent_timer (s : State) : (s.dropEvent).timer = s.timer := rfl
@[simp] theorem State.dropEvent_ctl (s : State) : (s.dropEvent).ctl = s.ctl := rfl
@[simp] theorem State.dropEvent_fx (s : State) : (s.dropEvent).fx = s.fx := rfl
@[simp] theorem State.dropEvent_rxq (s : State) : (s.dropEvent).rxq = s.rxq := rfl
@[simp] theorem State.dropEvent_txq (s : State) : (s.dropEvent).txq = s.txq := rfl
@[simp] theorem State.dropEvent_pm (s : State) : (s.dropEvent).pm = s.pm := rfl
@[simp] theorem State.dropEvent_ee (s : State) : (s.dropEvent).ee = s.ee := rfl
@[simp] theorem State.dropEvent_slotBoard (s : State) : (s.dropEvent).slotBoard = s.slotBoard := rfl
@[simp] theorem State.dropEvent_slotBitrate (s : State) : (s.dropEvent).slotBitrate = s.slotBitrate := rfl
@[simp] theorem State.dropEvent_fuse (s : State) : (s.dropEvent).fuse = s.fuse := rfl
@[simp] theorem State.dropEvent_events (s : State) : (s.dropEvent).events = s.events.tail := rfl

/-! `storeChunk` -/

@[simp] theorem storeChunk_cfg (p : List Byte) (s : State) : (storeChunk p s).cfg = s.cfg := rfl
@[simp] theorem storeChunk_msg (p : List Byte) (s : State) : (storeChunk p s).msg = s.msg := rfl
@[simp] theorem storeChunk_phase (p : List Byte) (s : State) : (storeChunk p s).phase = s.phase := rfl
@[simp] theorem storeChunk_targetPage (p : List Byte) (s : State) : (storeChunk p s).targetPage = s.targetPage := rfl
@[simp] theorem storeChunk_bufferOffset (p : List Byte) (s : State) : (storeChunk p s).bufferOffset = s.bufferOffset + 1 := rfl
@[simp] theorem storeChunk_pageBuffer (p : List Byte) (s : State) : (storeChunk p s).pageBuffer = s.pageBuffer.write (4 * s.bufferOffset.toNat) p := rfl
@[simp] theorem storeChunk_chunk (p : List Byte) (s : State) : (storeChunk p s).chunk = satDec s.chunk := rfl
@[simp] theorem storeChunk_board (p : List Byte) (s : State) : (storeChunk p s).board = s.board := rfl
@[simp] theorem storeChunk_sup (p : List Byte) (s : State) : (storeChunk p s).sup = s.sup := rfl
@[simp] theorem storeChunk_timer (p : List Byte) (s : State) : (storeChunk p s).timer = s.timer := rfl
@[simp] theorem storeChunk_ctl (p : List Byte) (s : State) : (storeChunk p s).ctl = s.ctl := rfl
@[simp] theorem storeChunk_fx (p : List Byte) (s : State) : (storeChunk p s).fx = s.fx := rfl
@[simp] theorem storeChunk_rxq (p : List Byte) (s : State) : (storeChunk p s).rxq = s.rxq := rfl
@[simp] theorem storeChunk_txq (p : List Byte) (s : State) : (storeChunk p s).txq = s.txq := rfl
@[simp] theorem storeChunk_pm (p : List Byte) (s : State) : (storeChunk p s).pm = s.pm := rfl
@[simp] theorem storeChunk_ee (p : List Byte) (s : State) : (storeChunk p s).ee = s.ee := rfl
@[simp] theorem storeChunk_slotBoard (p : List Byte) (s : State) : (storeChunk p s).slotBoard = s.slotBoard := rfl
@[simp] theorem storeChunk_slotBitrate (p : List Byte) (s : State) : (storeChunk p s).slotBitrate = s.slotBitrate := rfl
@[simp] theorem storeChunk_fuse (p : List Byte) (s : State) : (storeChunk p s).fuse = s.fuse := rfl
@[simp] theorem storeChunk_events (p : List Byte) (s : State) : (storeChunk p s).events = s.events := rfl

/-! `State.answer`, whatever the handler's result -/

@[simp] theorem State.answer_cfg (s : State) (c : Code) (r : Result) : (s.answer c r).cfg = s.cfg := by
  cases r <;> rfl
@[simp] theorem State.answer_msg (s : State) (c : Code) (r : Result) : (s.answer c r).msg = s.msg := by
  cases r <;> rfl
@[simp] theorem State.answer_phase (s : State) (c : Code) (r : Result) : (s.answer c r).phase = s.phase := by
  cases r <;> rfl
@[simp] theorem State.answer_targetPage (s : State) (c : Code) (r : Result) : (s.answer c r).targetPage = s.targetPage := by
  cases r <;> rfl
@[simp] theorem State.answer_bufferOffset (s : State) (c : Code) (r : Result) : (s.answer c r).bufferOffset = s.bufferOffset := by
  cases r <;> rfl
@[simp] theorem State.answer_pageBuffer (s : State) (c : Code) (r : Result) : (s.answer c r).pageBuffer = s.pageBuffer := by
  cases r <;> rfl
@[simp] theorem State.answer_chunk (s : State) (c : Code) (r : Result) : (s.answer c r).chunk = s.chunk := by
  cases r <;> rfl
@[simp] theorem State.answer_board (s : State) (c : Code) (r : Result) : (s.answer c r).board = s.board := by
  cases r <;> rfl
@[simp] theorem State.answer_sup (s : State) (c : Code) (r : Result) : (s.answer c r).sup = s.sup := by
  cases r <;> rfl
@[simp] theorem State.answer_timer (s : State) (c : Code) (r : Result) : (s.answer c r).timer = s.timer := by
  cases r <;> rfl
@[simp] theorem State.answer_ctl (s : State) (c : Code) (r : Result) : (s.answer c r).ctl = s.ctl := by
  cases r <;> rfl
@[simp] theorem State.answer_rxq (s : State) (c : Code) (r : Result) : (s.answer c r).rxq = s.rxq := by
  cases r <;> rfl
@[simp] theorem State.answer_txq (s : State) (c : Code) (r : Result) : (s.answer c r).txq = s.txq := by
  cases r <;> rfl
@[simp] theorem State.answer_pm (s : State) (c : Code) (r : Result) : (s.answer c r).pm = s.pm := by
  cases r <;> rfl
@[simp] theorem State.answer_ee (s : State) (c : Code) (r : Result) : (s.answer c r).ee = s.ee := by
  cases r <;> rfl
@[simp] theorem State.answer_slotBoard (s : State) (c : Code) (r : Result) : (s.answer c r).slotBoard = s.slotBoard := by
  cases r <;> rfl
@[simp] theorem State.answer_slotBitrate (s : State) (c : Code) (r : Result) : (s.answer c r).slotBitrate = s.slotBitrate := by
  cases r <;> rfl
@[simp] theorem State.answer_fuse (s : State) (c : Code) (r : Result) : (s.answer c r).fuse = s.fuse := by
  cases r <;> rfl
@[simp] theorem State.answer_events (s : State) (c : Code) (r : Result) : (s.answer c r).events = s.events := by
  cases r <;> rfl

@[simp] theorem State.answer_success_fx (s : State) (c : Code) (p : List Byte) :
    (s.answer c (.success p)).fx = s.fx ++ [.send (replyCommand kindSuccess c) p] := rfl

@[simp] theorem State.answer_silent (s : State) (c : Code) : s.answer c .silent = s := rfl

@[simp] theorem State.answer_error_fx (s : State) (c : Code) (w : Cause) (p : List Byte) :
    (s.answer c (.error w p)).fx = s.fx ++ [.send (replyCommand kindError c) p] := rfl

/-! What a power cycle keeps and what it resets -/

@[simp] theorem powerCycle_cfg (pb : List Byte) (s : State) : (powerCycle pb s).cfg = s.cfg := rfl
@[simp] theorem powerCycle_pm (pb : List Byte) (s : State) : (powerCycle pb s).pm = s.pm := rfl
@[simp] theorem powerCycle_ee (pb : List Byte) (s : State) : (powerCycle pb s).ee = s.ee := rfl
@[simp] theorem powerCycle_fuse (pb : List Byte) (s : State) : (powerCycle pb s).fuse = s.fuse := rfl
@[simp] theorem powerCycle_events (pb : List Byte) (s : State) : (powerCycle pb s).events = s.events := rfl
@[simp] theorem powerCycle_board (pb : List Byte) (s : State) :
    (powerCycle pb s).board = latchBoard s.slotBoard s.cfg.buildBoardId := rfl

end Sys2Proof.Machine
end

