-- ==== Sys2Proof/Laws/Words.lean ====
section
/-! SUPPORT. The arithmetic of the bit-level helpers, once each: what the frame's fields and the counters are as numbers,
and that the operations of Machine/ agree with the words of Safety.lean. -/

namespace Sys2Proof.Machine

@[simp] theorem kindOf_toNat (b : Byte) : (kindOf b).toNat = b.toNat / 64 := by
  revert b; decide

@[simp] theorem codeOf_toNat (b : Byte) : (codeOf b).toNat = b.toNat % 64 := by
  revert b; decide

@[simp] theorem kindOf_commandByte (k : BitVec 2) (c : Code) : kindOf (commandByte k c) = k := by
  revert k c; decide

@[simp] theorem codeOf_commandByte (k : BitVec 2) (c : Code) : codeOf (commandByte k c) = c := by
  revert k c; decide

@[simp] theorem commandByte_kindOf_codeOf (b : Byte) : commandByte (kindOf b) (codeOf b) = b := by
  revert b; decide

/-- The three reply kinds, as command bytes. -/
theorem replyCommand_success (c : Code) : replyCommand kindSuccess c = answerByte 1 c := by revert c; decide
theorem replyCommand_error (c : Code) : replyCommand kindError c = answerByte 2 c := by revert c; decide
theorem replyCommand_wrongNumber (c : Code) : replyCommand kindWrongNumber c = answerByte 3 c := by revert c; decide

theorem startOfGroup_iff (f : Fields) : startOfGroup f.chunkCounter = true ↔ StartsGroup f := by
  unfold StartsGroup
  generalize f.chunkCounter = b
  revert b; decide

@[simp] theorem countdown_toNat (b : Byte) : (countdown b).toNat = b.toNat % 128 := by revert b; decide

@[simp] theorem satDec_toNat (b : Byte) : (satDec b).toNat = b.toNat - 1 := by revert b; decide

@[simp] theorem nextNumber_toNat (b : Byte) : (nextNumber b).toNat = (b.toNat + 1) % 256 := by revert b; decide

@[simp] theorem be16_toNat (h l : Byte) : (be16 h l).toNat = h.toNat * 256 + l.toNat := by
  have := l.isLt
  unfold be16
  rw [BitVec.toNat_append, ← Nat.shiftLeft_add_eq_or_of_lt (by omega), Nat.shiftLeft_eq]

@[simp] theorem hi_toNat (v : Half) : (hi v).toNat = v.toNat / 256 := by
  have := v.isLt
  simp only [hi, BitVec.extractLsb'_toNat, Nat.shiftRight_eq_div_pow]
  omega

@[simp] theorem lo_toNat (v : Half) : (lo v).toNat = v.toNat % 256 := by
  simp [lo, BitVec.extractLsb'_toNat]

/-- The sequencer's test is the one of the statements. -/
theorem expects_iff (s : State) (n : Byte) : n = nextNumber s.msg ↔ s.Expects n := by
  rw [State.Expects, ← nextNumber_toNat]
  exact BitVec.toNat_inj.symm

theorem nextNumber_eq (m : Byte) : nextNumber m = BitVec.ofNat 8 (m.toNat + 1) := by revert m; decide

/-- The address filter is the one of the statements. -/
theorem visible_iff (s : State) (c : Code) (a : Byte) : s.visible c a = true ↔ s.Sees c a := by
  have : c = 0#6 ↔ c.toNat = 0 := by revert c; decide
  simp [State.visible, State.Sees, this]

end Sys2Proof.Machine
end

