-- ==== Sys2Proof/Laws/Course.lean ====
section
/-! SUPPORT. What the course of a frame can do, once per shared operation: `processRequest`, `processIgnored`, the
wrappers of handlers, and `exec` as these. -/

namespace Sys2Proof.Machine

/-- The handler that the dispatcher routes a request to (42_commands.md R231). -/
def Instr.handler (c : Config) : Instr → Handler
  | .noOperation _ => handleNoOperation
  | .identify _ => handleIdentify
  | .setAddress _ => handleSetAddress
  | .data _ => handleData
  | .startApp _ => handleStartApp
  | .readFlash _ => optional c.optReadFlash handleReadFlash
  | .getFusebits _ => optional c.optGetFusebits handleGetFusebits
  | .chipErase _ => optional c.optChipErase handleChipErase
  | .readEeprom _ => optional c.optReadEeprom handleReadEeprom
  | .writeEeprom _ => optional c.optWriteEeprom handleWriteEeprom
  | .setBoardId _ => optional c.optSetBoardId handleSetBoardId
  | .setBitrate _ => optional c.optSetBitrate handleSetBitrate
  | .unrecognizedRequest _ _ | .ignoredKindSuccess _ _ | .ignoredKindError _ _ | .ignoredKindWrongNumber _ _ =>
    handleUnrecognized

/-- `exec` is the course of a request with its handler, or of an ignored frame. -/
theorem exec_eq (i : Instr) (s : State) :
    exec i s = if i.kind = 0 then processRequest i.code (Instr.handler s.cfg i) i.fields s
      else processIgnored i.code i.fields s := by
  cases i <;> rfl

/-- A frame that the filter drops only settles the control state (R131). -/
theorem exec_unseen {i : Instr} {s : State} (h : ¬ s.Sees i.code i.fields.address) :
    exec i s = .next s.settle := by
  have hv : s.visible i.code i.fields.address = false := by simpa [← visible_iff] using h
  rw [exec_eq]
  simp [processRequest, processIgnored, hv]

/-- A visible frame of another kind passes the supervisor and is ignored (R133). -/
theorem exec_ignored {i : Instr} {s : State} (hk : i.kind ≠ 0) (h : s.Sees i.code i.fields.address) :
    exec i s = .next s.firstFrame.settle := by
  rw [exec_eq, if_neg hk, processIgnored, if_pos ((visible_iff _ _ _).mpr h)]

/-- A visible request out of sequence gets the WRONG_NUMBER reply (R134). -/
theorem exec_wrongNumber {i : Instr} {s : State} (hk : i.kind = 0) (h : s.Sees i.code i.fields.address)
    (hn : ¬ s.Expects i.fields.number) :
    exec i s = .next (s.firstFrame.reply kindWrongNumber i.code []).settle := by
  rw [exec_eq, if_pos hk, processRequest, if_pos ((visible_iff _ _ _).mpr h),
    if_neg (fun e => hn ((expects_iff _ _).mp e))]

/-- An accepted request runs its handler with `msg` advanced, and is answered as the handler says (R135–R139). -/
theorem exec_accepted {i : Instr} {s : State} (hk : i.kind = 0) (h : s.Accepts i.code i.fields) :
    exec i s = match Instr.handler s.cfg i i.fields s.firstFrame.advance with
      | .ok (t, r) => .next (t.answer i.code r).settle
      | .error e => .fault e := by
  have hv : s.visible i.code i.fields.address = true := (visible_iff _ _ _).mpr h.1
  have hn : i.fields.number = nextNumber s.msg := (expects_iff _ _).mpr h.2
  cases hu : Instr.handler s.cfg i i.fields s.firstFrame.advance <;> simp [exec_eq, hk, processRequest, hv, hn, hu]

/-- The four ways a frame step can answer a next state. -/
theorem exec_next {i : Instr} {s t : State} (e : exec i s = .next t) :
    (¬ s.Sees i.code i.fields.address ∧ t = s.settle) ∨
    (i.kind ≠ 0 ∧ s.Sees i.code i.fields.address ∧ t = s.firstFrame.settle) ∨
    (i.kind = 0 ∧ s.Sees i.code i.fields.address ∧ ¬ s.Expects i.fields.number ∧
      t = (s.firstFrame.reply kindWrongNumber i.code []).settle) ∨
    (i.kind = 0 ∧ s.Accepts i.code i.fields ∧ ∃ u r,
      Instr.handler s.cfg i i.fields s.firstFrame.advance = .ok (u, r) ∧ t = (u.answer i.code r).settle) := by
  by_cases hv : s.Sees i.code i.fields.address
  · by_cases hk : i.kind = 0
    · by_cases hn : s.Expects i.fields.number
      · rw [exec_accepted hk ⟨hv, hn⟩] at e
        split at e
        · next u r hu => exact .inr (.inr (.inr ⟨hk, ⟨hv, hn⟩, u, r, hu, by cases e; rfl⟩))
        · cases e
      · rw [exec_wrongNumber hk hv hn] at e
        exact .inr (.inr (.inl ⟨hk, hv, hn, by cases e; rfl⟩))
    · rw [exec_ignored hk hv] at e
      exact .inr (.inl ⟨hk, hv, by cases e; rfl⟩)
  · rw [exec_unseen hv] at e
    exact .inl ⟨hv, by cases e; rfl⟩

/-! ### The operations in the words of Safety.lean -/

theorem firstFrame_settle (s : State) : s.firstFrame.settle = s.sawFrame [] := by
  cases h : s.sup <;>
    simp [State.firstFrame, State.settle, State.sawFrame, State.supSeen, State.timerSeen, h, List.isEmpty_iff]

theorem firstFrame_reply_settle (s : State) (k : Byte) (c : Code) (p : List Byte) :
    (s.firstFrame.reply k c p).settle = s.sawFrame [.send (replyCommand k c) p] := by
  cases h : s.sup <;>
    simp [State.firstFrame, State.reply, State.emit, State.settle, State.sawFrame, State.supSeen, State.timerSeen, h,
      List.isEmpty_iff]

/-- An accepted request that emitted `es` and wrote no Session register. -/
theorem accepted_emit (s : State) (es : List Effect) : (s.firstFrame.advance.emit es).settle = s.accepted es := by
  cases h : s.sup <;>
    simp [State.firstFrame, State.advance, State.emit, State.settle, State.accepted, State.sawFrame, State.supSeen,
      State.timerSeen, h, nextNumber_eq, List.isEmpty_iff]

theorem accepted_silent (s : State) : s.firstFrame.advance.settle = s.accepted [] := by
  rw [← accepted_emit]
  simp [State.emit, State.firstFrame, State.advance]

theorem accepted_success (s : State) (c : Code) (p : List Byte) :
    (s.firstFrame.advance.answer c (.success p)).settle = s.accepted [.send (answerByte 1 c) p] := by
  rw [← replyCommand_success, ← accepted_emit]
  rfl

theorem accepted_error (s : State) (c : Code) (w : Cause) (p : List Byte) :
    (s.firstFrame.advance.answer c (.error w p)).settle = s.accepted [.send (answerByte 2 c) p] := by
  rw [← replyCommand_error, ← accepted_emit]
  rfl

theorem accepted_emit_success (s : State) (c : Code) (es : List Effect) (p : List Byte) :
    ((s.firstFrame.advance.emit es).answer c (.success p)).settle =
      s.accepted (es ++ [.send (answerByte 1 c) p]) := by
  rw [← replyCommand_success, ← accepted_emit]
  simp [State.answer, State.reply, State.emit]

/-! ### The handlers -/

theorem raiseError_ok {w : Cause} {f : Fields} {s u : State} {r : Result} :
    raiseError w f s = .ok (u, r) ↔ u = s ∧ r = .error w f.payload := by
  simp [raiseError, eq_comm]

theorem withLength_right {n : Nat} {h : Handler} {f : Fields} {s : State} (hl : f.payload.length = n) :
    withLength n h f s = h f s := if_pos hl

theorem withLength_wrong {n : Nat} {h : Handler} {f : Fields} {s : State} (hl : f.payload.length ≠ n) :
    withLength n h f s = raiseError .eLen f s := if_neg hl

@[simp] theorem optional_true (h : Handler) : optional true h = h := rfl

@[simp] theorem optional_false (h : Handler) : optional false h = handleUnrecognized := rfl

end Sys2Proof.Machine
end

