-- ==== Sys2Proof/Laws/Decode.lean ====
section
/-! SUPPORT. What decoding a command byte gives: an instruction with the frame's fields, kind and code. -/

namespace Sys2Proof.Machine

theorem decodeRequest_unassigned {c : Code} (h : 12 ≤ c.toNat) (f : Fields) :
    decodeRequest c f = .unrecognizedRequest c f := by
  unfold decodeRequest
  split
  case h_13 => rfl
  all_goals exfalso; omega

/-- The instruction of a request's code keeps the frame's fields and code, and is well formed when the fields are. -/
theorem decodeRequest_spec (c : Code) (f : Fields) :
    (decodeRequest c f).fields = f ∧ (decodeRequest c f).kind = 0 ∧ (decodeRequest c f).code = c ∧
      (decodeRequest c f).wf = f.wf := by
  by_cases h : 12 ≤ c.toNat
  · rw [decodeRequest_unassigned h]
    exact ⟨rfl, rfl, rfl, by simp [Instr.wf, h]⟩
  · unfold decodeRequest
    split
    case h_13 =>
      have hlt : c.toNat < 12 := by omega
      interval_cases hc : c.toNat <;> simp_all
    all_goals exact ⟨rfl, rfl, BitVec.eq_of_toNat_eq (by simp [Instr.code, *]), rfl⟩

/-- The instruction of a command byte keeps the frame's fields, its kind and its code, and is well formed when the
fields are. -/
theorem decodeCommand_spec (k : Byte) (f : Fields) :
    (decodeCommand k f).fields = f ∧ (decodeCommand k f).kind = kindOf k ∧ (decodeCommand k f).code = codeOf k ∧
      (decodeCommand k f).wf = f.wf := by
  unfold decodeCommand
  split <;> rename_i h
  · have := decodeRequest_spec (codeOf k) f
    exact ⟨this.1, this.2.1.trans (BitVec.eq_of_toNat_eq h.symm), this.2.2⟩
  · exact ⟨rfl, BitVec.eq_of_toNat_eq h.symm, rfl, rfl⟩
  · exact ⟨rfl, BitVec.eq_of_toNat_eq h.symm, rfl, rfl⟩
  · refine ⟨rfl, BitVec.eq_of_toNat_eq ?_, rfl, rfl⟩
    have hlt : (kindOf k).toNat < 4 := (kindOf k).isLt
    interval_cases hk : (kindOf k).toNat
    · exact absurd rfl ‹(0 : Nat) = 0 → False›
    · exact absurd rfl ‹(1 : Nat) = 1 → False›
    · exact absurd rfl ‹(2 : Nat) = 2 → False›
    · rfl

end Sys2Proof.Machine
end

