-- ==== Sys2Proof/Laws/Memory.lean ====
section
/-! SUPPORT. The laws of the memories: a write keeps the canonical form, a read after it gives the bytes written at the
addresses written and the old bytes elsewhere. -/

namespace Sys2Proof.Machine

@[simp] theorem Memory.length_readBytes (m : Memory) (a n : Nat) : (m.readBytes a n).length = n := by
  induction n generalizing a with
  | zero => rfl
  | succ n ih => simp [Memory.readBytes, ih]

theorem Memory.getElem_readBytes (m : Memory) (a n i : Nat) (h : i < (m.readBytes a n).length) :
    (m.readBytes a n)[i] = m.read (a + i) := by
  induction n generalizing a i with
  | zero => simp [Memory.readBytes] at h
  | succ n ih =>
    cases i with
    | zero => rfl
    | succ i => simp [Memory.readBytes, ih, Nat.add_assoc, Nat.add_comm 1]

theorem Memory.mem_cells {a : Nat} {bs : List Byte} {c : Host.Cell} (h : c ∈ Memory.cells a bs) :
    a ≤ c.1 ∧ c.1 < a + bs.length ∧ c.2 ≠ Memory.unlisted := by
  induction bs generalizing a with
  | nil => simp [Memory.cells] at h
  | cons b bs ih =>
    simp only [Memory.cells] at h
    split at h
    · have := ih h
      exact ⟨by omega, by simp only [List.length_cons]; omega, this.2.2⟩
    · rcases List.mem_cons.mp h with rfl | h
      · simpa using ‹_›
      · have := ih h
        exact ⟨by omega, by simp only [List.length_cons]; omega, this.2.2⟩

theorem Memory.pairwise_cells (a : Nat) (bs : List Byte) :
    (Memory.cells a bs).Pairwise (fun c d => c.1 < d.1) := by
  induction bs generalizing a with
  | nil => exact List.Pairwise.nil
  | cons b bs ih =>
    simp only [Memory.cells]
    split
    · exact ih _
    · exact List.pairwise_cons.mpr ⟨fun c hc => Nat.lt_of_succ_le (Memory.mem_cells hc).1, ih _⟩

/-- Writing keeps the canonical form. -/
theorem Memory.wf_write {m : Memory} (h : m.wf) (a : Nat) (bs : List Byte) : (m.write a bs).wf := by
  refine ⟨?_, ?_⟩
  · simp only [Memory.write, List.append_assoc, List.pairwise_append, List.mem_append, List.mem_filter,
      decide_eq_true_eq]
    refine ⟨h.1.filter _, ⟨Memory.pairwise_cells _ _, h.1.filter _, ?_⟩, ?_⟩
    · intro c hc d hd
      have := Memory.mem_cells hc
      omega
    · rintro c ⟨_, hc⟩ d (hd | ⟨_, hd⟩)
      · have := Memory.mem_cells hd
        omega
      · omega
  · intro c hc
    simp only [Memory.write, List.mem_append, List.mem_filter] at hc
    rcases hc with (⟨hc, _⟩ | hc) | ⟨hc, _⟩
    · exact h.2 c hc
    · exact (Memory.mem_cells hc).2.2
    · exact h.2 c hc

theorem Memory.within_write {m : Memory} {n : Nat} (h : m.Within n) {a : Nat} {bs : List Byte}
    (hb : a + bs.length ≤ n) : (m.write a bs).Within n := by
  refine ⟨Memory.wf_write h.1 a bs, fun c hc => ?_⟩
  simp only [Memory.write, List.mem_append, List.mem_filter] at hc
  rcases hc with (⟨hc, _⟩ | hc) | ⟨hc, _⟩
  · exact h.2 c hc
  · have := Memory.mem_cells hc
    omega
  · exact h.2 c hc

theorem Memory.within_nil (n : Nat) : Memory.Within [] n := ⟨⟨List.Pairwise.nil, by simp⟩, by simp⟩

/-- The byte at an address, by the entry found there. -/
theorem Memory.read_eq (m : Memory) (x : Nat) :
    m.read x = ((m.find? (fun c => c.1 == x)).map (·.2)).getD Memory.unlisted := by
  unfold Memory.read
  cases m.find? (fun c => c.1 == x) <;> rfl

theorem Memory.read_cells (a : Nat) (bs : List Byte) (x : Nat) :
    (Memory.cells a bs).read x = if a ≤ x then bs.getD (x - a) Memory.unlisted else Memory.unlisted := by
  induction bs generalizing a with
  | nil => simp [Memory.cells, Memory.read]
  | cons b bs ih =>
    have hs (hx : a ≠ x) : (if a + 1 ≤ x then bs.getD (x - (a + 1)) Memory.unlisted else Memory.unlisted) =
        if a ≤ x then (b :: bs).getD (x - a) Memory.unlisted else Memory.unlisted := by
      by_cases ha : a ≤ x
      · simp [ha, show a + 1 ≤ x by omega, show x - a = x - (a + 1) + 1 by omega]
      · simp [ha, show ¬ a + 1 ≤ x by omega]
    simp only [Memory.cells]
    by_cases hx : a = x
    · subst hx
      split
      · rename_i hb
        simp [ih, hb]
      · simp [Memory.read]
    · split
      · rw [ih, hs hx]
      · rw [← hs hx, ← ih, Memory.read_eq, Memory.read_eq]
        simp [hx]

/-- A read after a write: the byte written where one was, the old byte elsewhere. -/
theorem Memory.read_write (m : Memory) (a : Nat) (bs : List Byte) (x : Nat) :
    (m.write a bs).read x =
      if a ≤ x ∧ x < a + bs.length then bs.getD (x - a) Memory.unlisted else m.read x := by
  have hlow : (m.filter (fun c => decide (c.1 < a))).find? (fun c => c.1 == x) =
      if x < a then m.find? (fun c => c.1 == x) else none := by
    rw [List.find?_filter]
    split
    · congr 1
      funext c
      by_cases e : c.1 = x <;> simp [*]
    · refine List.find?_eq_none.mpr fun c _ => ?_
      simp only [decide_eq_true_eq, beq_iff_eq]
      omega
  have hhigh : (m.filter (fun c => decide (a + bs.length ≤ c.1))).find? (fun c => c.1 == x) =
      if a + bs.length ≤ x then m.find? (fun c => c.1 == x) else none := by
    rw [List.find?_filter]
    split
    · congr 1
      funext c
      by_cases e : c.1 = x <;> simp [*]
    · refine List.find?_eq_none.mpr fun c _ => ?_
      simp only [decide_eq_true_eq, beq_iff_eq]
      omega
  have hc := Memory.read_cells a bs x
  have hnone (h : ¬ (a ≤ x ∧ x < a + bs.length)) : (Memory.cells a bs).find? (fun c => c.1 == x) = none :=
    List.find?_eq_none.mpr fun c hm => by
      have := Memory.mem_cells hm
      simp only [beq_iff_eq]
      omega
  rw [Memory.read_eq, Memory.read_eq]
  rw [Memory.read_eq] at hc
  unfold Memory.write
  rw [List.find?_append, List.find?_append, hlow, hhigh]
  by_cases h1 : x < a
  · rw [hnone (by omega)]
    simp [h1, show ¬ a + bs.length ≤ x by omega, show ¬ a ≤ x by omega]
  · by_cases h2 : a + bs.length ≤ x
    · rw [hnone (by omega)]
      simp [h1, h2, show ¬ x < a + bs.length by omega]
    · simp only [h1, h2, if_false, Option.none_or, Option.or_none, show a ≤ x ∧ x < a + bs.length by omega,
        and_self, if_true]
      rw [hc]
      simp [show a ≤ x by omega]

/-- A write leaves every byte outside the written run as it was. -/
theorem Memory.read_write_outside (m : Memory) {a : Nat} {bs : List Byte} {x : Nat}
    (h : ¬ (a ≤ x ∧ x < a + bs.length)) : (m.write a bs).read x = m.read x := by
  rw [Memory.read_write, if_neg h]

/-- Byte `i` of the written run is `bs[i]`. -/
theorem Memory.read_write_inside (m : Memory) (a : Nat) (bs : List Byte) (i : Nat) (h : i < bs.length) :
    (m.write a bs).read (a + i) = bs[i] := by
  rw [Memory.read_write, if_pos (by omega)]
  simp [List.getD_eq_getElem?_getD, h]

theorem Launch.reference_fits : Launch.reference.Fits Config.reference :=
  ⟨Memory.within_nil _, Memory.within_nil _, Memory.within_nil _⟩

/-- The memories of `State.reset` are canonical. -/
theorem State.reset_memories_wf :
    State.reset.pageBuffer.wf ∧ State.reset.pm.wf ∧ State.reset.ee.wf := by decide

end Sys2Proof.Machine
end

