-- ==== Sys2Proof/Laws/Handlers.lean ====
section
/-! SUPPORT. What the handlers can do, said once: which fields they leave, what they emit, and what they answer. -/

namespace Sys2Proof.Machine

/-- How a handler that is neither DATA's nor SET_ADDRESS's ends: it emits effects and writes nothing else (R47). -/
def Emits (s u : State) : Prop := ∃ es, u = s.emit es

theorem emits_refl (s : State) : Emits s s := ⟨[], by simp [State.emit]⟩

theorem raiseError_emits {w : Cause} {f : Fields} {s u : State} {r : Result}
    (h : raiseError w f s = .ok (u, r)) : Emits s u := by
  obtain ⟨rfl, _⟩ := raiseError_ok.mp h
  exact emits_refl u

theorem withLength_emits {n : Nat} {g : Handler} {f : Fields} {s u : State} {r : Result}
    (hg : g f s = .ok (u, r) → Emits s u) (h : withLength n g f s = .ok (u, r)) : Emits s u := by
  unfold withLength at h
  split at h
  · exact hg h
  · exact raiseError_emits h

theorem optional_emits {b : Bool} {g : Handler} {f : Fields} {s u : State} {r : Result}
    (hg : g f s = .ok (u, r) → Emits s u) (h : optional b g f s = .ok (u, r)) : Emits s u := by
  cases b
  · exact raiseError_emits h
  · exact hg h

/-- Every handler but those of DATA and SET_ADDRESS only emits (R47, R190–R230). -/
theorem handler_emits {c : Config} {i : Instr} {f : Fields} {s u : State} {r : Result}
    (hd : ∀ g, i ≠ .data g) (hs : ∀ g, i ≠ .setAddress g)
    (h : Instr.handler c i f s = .ok (u, r)) : Emits s u := by
  cases i with
  | data g => exact absurd rfl (hd g)
  | setAddress g => exact absurd rfl (hs g)
  | noOperation g =>
    simp only [Instr.handler, handleNoOperation] at h
    exact withLength_emits (fun h => by cases h; exact ⟨_, rfl⟩) h
  | identify g =>
    simp only [Instr.handler, handleIdentify] at h
    exact withLength_emits (fun h => by cases h; exact emits_refl s) h
  | startApp g =>
    simp only [Instr.handler, handleStartApp] at h
    refine withLength_emits (fun h => ?_) h
    cases h
    exact ⟨[.send (replyCommand kindSuccess 4) [], .jump], by simp [State.reply, State.emit]⟩
  | readFlash g =>
    simp only [Instr.handler, handleReadFlash] at h
    refine optional_emits (withLength_emits fun h => ?_) h
    split at h
    · exact raiseError_emits h
    · split at h
      · cases h; exact emits_refl s
      · cases h
  | getFusebits g =>
    simp only [Instr.handler, handleGetFusebits] at h
    exact optional_emits (withLength_emits fun h => by cases h; exact emits_refl s) h
  | chipErase g =>
    simp only [Instr.handler, handleChipErase] at h
    exact optional_emits (withLength_emits fun h => by cases h; exact ⟨_, rfl⟩) h
  | readEeprom g =>
    simp only [Instr.handler, handleReadEeprom] at h
    refine optional_emits (withLength_emits fun h => ?_) h
    split at h
    · exact raiseError_emits h
    · split at h
      · cases h; exact emits_refl s
      · cases h
  | writeEeprom g =>
    simp only [Instr.handler] at h
    refine optional_emits (fun h => ?_) h
    unfold handleWriteEeprom at h
    split at h
    · exact raiseError_emits h
    · split at h
      · exact raiseError_emits h
      · cases h; exact ⟨_, rfl⟩
  | setBoardId g =>
    simp only [Instr.handler, handleSetBoardId] at h
    refine optional_emits (withLength_emits fun h => ?_) h
    split at h
    · exact raiseError_emits h
    · cases h; exact ⟨_, rfl⟩
  | setBitrate g =>
    simp only [Instr.handler, handleSetBitrate] at h
    refine optional_emits (withLength_emits fun h => ?_) h
    split at h
    · exact raiseError_emits h
    · cases h; exact ⟨_, rfl⟩
  | unrecognizedRequest _ _ => exact raiseError_emits h
  | ignoredKindSuccess _ _ => exact raiseError_emits h
  | ignoredKindError _ _ => exact raiseError_emits h
  | ignoredKindWrongNumber _ _ => exact raiseError_emits h

/-- What SET_ADDRESS's handler can do: nothing but raise, or set the page, the slot and the phase (R192, R193). -/
theorem handleSetAddress_ok {f : Fields} {s u : State} {r : Result} (h : handleSetAddress f s = .ok (u, r)) :
    (u = s ∧ ∃ w, r = .error w f.payload) ∨
    (f.payload.length = 4 ∧ pageOf f.payload < s.cfg.maxPages ∧ (offsetOf f.payload).toNat < s.cfg.chunks ∧
      r = .success f.payload ∧
      u = { s with
        targetPage := pageOf f.payload, bufferOffset := offsetOf f.payload, phase := .collectingPage }) := by
  unfold handleSetAddress at h
  by_cases hl : f.payload.length = 4
  · rw [withLength_right hl] at h
    split at h
    · obtain ⟨hu, hr⟩ := raiseError_ok.mp h
      exact .inl ⟨hu, _, hr⟩
    · next hc =>
      cases h
      simp only [BitVec.le_def, not_or, Nat.not_le] at hc
      exact .inr ⟨hl, BitVec.lt_def.mpr hc.1, hc.2, rfl, rfl⟩
  · rw [withLength_wrong hl] at h
    obtain ⟨hu, hr⟩ := raiseError_ok.mp h
    exact .inl ⟨hu, _, hr⟩

/-- What the end of a group can do (R166–R168): refuse a protected page, commit a page, or acknowledge. -/
theorem completeGroup_ok {s u : State} {r : Result} (h : completeGroup s = .ok (u, r)) :
    (s.cfg.maxPages ≤ s.targetPage ∧ u = s ∧ r = .error .eProtect (bytesOf s.targetPage)) ∨
    (s.targetPage < s.cfg.maxPages ∧ r = .success (bytesOf s.targetPage) ∧
      u = { s.emit [.flashErase s.targetPage.toNat,
              .flashWrite s.targetPage.toNat (s.pageBuffer.readBytes 0 s.cfg.pageSize), .rwwEnable] with
            bufferOffset := 0, targetPage := s.targetPage + 1 }) ∨
    (u = s ∧ r = .success []) := by
  unfold completeGroup at h
  split at h
  · split at h
    · next hp => cases h; exact .inl ⟨hp, rfl, rfl⟩
    · next hp =>
      cases h
      exact .inr (.inl ⟨by rw [BitVec.le_def] at hp; exact BitVec.lt_def.mpr (by omega), rfl, rfl⟩)
  · cases h; exact .inr (.inr ⟨rfl, rfl⟩)

/-- What DATA's handler can do: abort, or store the chunk with a 7-bit countdown `c` and be silent or end the group
(R160–R168). -/
theorem handleData_ok {f : Fields} {s u : State} {r : Result} (h : handleData f s = .ok (u, r)) :
    (u = { s with phase := .idle } ∧ ∃ w, r = .error w f.payload) ∨
    (f.payload.length = 4 ∧ s.bufferOffset.toNat < s.cfg.chunks ∧ s.phase = .collectingPage ∧ s.InOrder f ∧
      ∃ c : Byte, c.toNat ≤ 127 ∧
        ((c ≠ 0 ∧ r = .silent ∧ u = storeChunk f.payload { s with chunk := c }) ∨
         (c = 0 ∧ completeGroup (storeChunk f.payload { s with chunk := c }) = .ok (u, r)))) := by
  unfold handleData abortGroup at h
  split at h
  · obtain ⟨hu, hr⟩ := raiseError_ok.mp h
    exact .inl ⟨hu, _, hr⟩
  split at h
  · obtain ⟨hu, hr⟩ := raiseError_ok.mp h
    exact .inl ⟨hu, _, hr⟩
  split at h
  · obtain ⟨hu, hr⟩ := raiseError_ok.mp h
    exact .inl ⟨hu, _, hr⟩
  next hl ho hp =>
  have hc : s.phase = .collectingPage := by
    cases e : s.phase
    · exact absurd e hp
    · rfl
  have hs (c : Byte) (ho' : s.InOrder f) (h7 : c.toNat ≤ 127)
      (h : acceptChunk c f.payload { s with chunk := c } = .ok (u, r)) :
      f.payload.length = 4 ∧ s.bufferOffset.toNat < s.cfg.chunks ∧ s.phase = .collectingPage ∧ s.InOrder f ∧
      ∃ c : Byte, c.toNat ≤ 127 ∧
        ((c ≠ 0 ∧ r = .silent ∧ u = storeChunk f.payload { s with chunk := c }) ∨
         (c = 0 ∧ completeGroup (storeChunk f.payload { s with chunk := c }) = .ok (u, r))) := by
    refine ⟨by omega, by omega, hc, ho', c, h7, ?_⟩
    unfold acceptChunk at h
    split at h
    · exact .inr ⟨‹_›, h⟩
    · cases h
      exact .inl ⟨‹_›, rfl, rfl⟩
  split at h
  · next hg =>
    refine .inr (hs (countdown f.chunkCounter) (.inl ((startOfGroup_iff f).mp hg)) (by simp; omega) ?_)
    have e : ({ s with chunk := countdown f.chunkCounter, phase := .collectingPage } : State) =
        { s with chunk := countdown f.chunkCounter } := by rw [← hc]
    rwa [e] at h
  · next hg =>
    split at h
    · next hk =>
      refine .inr (hs f.chunkCounter (.inr hk) ?_ ?_)
      · have := (startOfGroup_iff f).not.mp hg
        simp only [StartsGroup] at this
        omega
      · have e : ({ s with chunk := f.chunkCounter } : State) = s := by rw [hk]
        rwa [e]
    · obtain ⟨hu, hr⟩ := raiseError_ok.mp h
      exact .inl ⟨hu, _, hr⟩

/-- What every handler leaves as it was: all but the Session registers and the effect list (R47). -/
theorem handler_frame {c : Config} {i : Instr} {f : Fields} {s u : State} {r : Result}
    (h : Instr.handler c i f s = .ok (u, r)) :
    u.cfg = s.cfg ∧ u.msg = s.msg ∧ u.board = s.board ∧ u.sup = s.sup ∧ u.timer = s.timer ∧ u.ctl = s.ctl ∧
    u.rxq = s.rxq ∧ u.txq = s.txq ∧ u.pm = s.pm ∧ u.ee = s.ee ∧ u.slotBoard = s.slotBoard ∧
    u.slotBitrate = s.slotBitrate ∧ u.fuse = s.fuse ∧ u.events = s.events := by
  by_cases hd : ∃ g, i = .data g
  · obtain ⟨g, rfl⟩ := hd
    rcases handleData_ok h with ⟨rfl, _⟩ | ⟨_, _, _, _, c, _, ⟨_, _, rfl⟩ | ⟨_, h⟩⟩
    · simp
    · simp
    · rcases completeGroup_ok h with ⟨_, rfl, _⟩ | ⟨_, _, rfl⟩ | ⟨rfl, _⟩ <;> simp
  by_cases hs : ∃ g, i = .setAddress g
  · obtain ⟨g, rfl⟩ := hs
    rcases handleSetAddress_ok h with ⟨rfl, _⟩ | ⟨_, _, _, _, rfl⟩ <;> simp
  · obtain ⟨es, rfl⟩ := handler_emits (fun g e => hd ⟨g, e⟩) (fun g e => hs ⟨g, e⟩) h
    simp

end Sys2Proof.Machine
end

