-- ==== Sys2Proof/Laws/PerInstr.lean ====
section
/-! SUPPORT. Statements made for every instruction, one lemma per constructor of `Instr`. -/

namespace Sys2Proof.Laws.EncodedFrame

/-- The frame of a well-formed instruction is one Transport may deliver: 4 header bytes and its payload, at most 4
(30_encoding.md R100, R101). -/
def Statement (i : Instr) : Prop := i.wf = true → (encode i).wf = true

/-- A frame is well formed as soon as its payload is short enough. -/
theorem encode_wf {i : Instr} (h : i.fields.wf = true) : (encode i).wf = true := by
  simp only [Fields.wf, decide_eq_true_eq] at h
  exact Bool.and_eq_true_iff.mpr ⟨decide_eq_true h, decide_eq_true (by simp only [encode, List.length_cons]; omega)⟩

theorem noOperation (f : Fields) : Statement (.noOperation f) := fun h => encode_wf h
theorem identify (f : Fields) : Statement (.identify f) := fun h => encode_wf h
theorem setAddress (f : Fields) : Statement (.setAddress f) := fun h => encode_wf h
theorem data (f : Fields) : Statement (.data f) := fun h => encode_wf h
theorem startApp (f : Fields) : Statement (.startApp f) := fun h => encode_wf h
theorem readFlash (f : Fields) : Statement (.readFlash f) := fun h => encode_wf h
theorem getFusebits (f : Fields) : Statement (.getFusebits f) := fun h => encode_wf h
theorem chipErase (f : Fields) : Statement (.chipErase f) := fun h => encode_wf h
theorem readEeprom (f : Fields) : Statement (.readEeprom f) := fun h => encode_wf h
theorem writeEeprom (f : Fields) : Statement (.writeEeprom f) := fun h => encode_wf h
theorem setBoardId (f : Fields) : Statement (.setBoardId f) := fun h => encode_wf h
theorem setBitrate (f : Fields) : Statement (.setBitrate f) := fun h => encode_wf h
theorem unrecognizedRequest (code : Code) (f : Fields) : Statement (.unrecognizedRequest code f) := fun h => encode_wf (Bool.and_eq_true_iff.mp h).2
theorem ignoredKindSuccess (code : Code) (f : Fields) : Statement (.ignoredKindSuccess code f) := fun h => encode_wf h
theorem ignoredKindError (code : Code) (f : Fields) : Statement (.ignoredKindError code f) := fun h => encode_wf h
theorem ignoredKindWrongNumber (code : Code) (f : Fields) : Statement (.ignoredKindWrongNumber code f) := fun h => encode_wf h

end Sys2Proof.Laws.EncodedFrame
end

