-- ==== Sys2Proof/Laws/Step.lean ====
section
/-! SUPPORT. What a step can do, said once: performing an effect, and the move of each agent. -/

namespace Sys2Proof.Machine

/-- A delivery that decodes is a frame (R101). -/
theorem decode_ok_wf {d : RxFrame} {i : Instr} (h : decode d = .ok i) :
    d.wf = true ∧ i.fields.payload.length ≤ 4 := by
  unfold decode at h
  split at h
  · next a k m c p hb =>
    split at h
    · cases h
    · split at h
      · cases h
        rw [(decodeCommand_spec k _).1]
        simp only [RxFrame.wf, hb, List.length_cons, Bool.and_eq_true, decide_eq_true_eq]
        omega
      · cases h
  · cases h

/-- Everything performing an effect can do (70_reset_and_hazards.md R300–R303). -/
theorem performEffect_next {e : Effect} {rest : List Effect} {s t : State}
    (h : performEffect e rest s = .next t) :
    (t = s ∧ (∃ c p, e = .send c p) ∧ s.cfg.txSlots ≤ s.txq.length) ∨
    (∃ c p, e = .send c p ∧ s.txq.length < s.cfg.txSlots ∧
      t = State.retire { s with txq := s.txq ++ [⟨c, p⟩] } rest) ∨
    (∃ p bytes, (e = .flashWrite p bytes ∨
        e = .flashErase p ∧ bytes = List.replicate s.cfg.pageSize s.cfg.erasedByte) ∧
      p < s.cfg.flashPages ∧ bytes.length ≤ s.cfg.pageSize ∧
      t = State.retire { s with pm := s.pm.write (p * s.cfg.pageSize) bytes } rest) ∨
    (∃ a bytes, e = .eepromWrite a bytes ∧ a + bytes.length ≤ s.cfg.eepromSize ∧
      t = State.retire { s with ee := s.ee.write a bytes } rest) ∨
    (∃ slot v, e = .cfgWrite slot v ∧ t = (s.writeCfg slot v).retire rest) ∨
    ((e = .rwwEnable ∨ e = .indicatorToggle ∨ e = .indicatorOff) ∧ t = s.retire rest) ∨
    (e = .jump ∧ t = { s with sup := .runningApplication, ctl := .halt, fx := rest }) := by
  cases e with
  | send c p =>
    simp only [performEffect] at h
    split at h
    · cases h
      exact .inr (.inl ⟨c, p, rfl, ‹_›, rfl⟩)
    · cases h
      exact .inl ⟨rfl, ⟨c, p, rfl⟩, by omega⟩
  | flashErase p =>
    simp only [performEffect, State.writePage] at h
    split at h
    · next hp => cases h; exact .inr (.inr (.inl ⟨p, _, .inr ⟨rfl, rfl⟩, hp.1, hp.2, rfl⟩))
    · cases h
  | flashWrite p bytes =>
    simp only [performEffect, State.writePage] at h
    split at h
    · next hp => cases h; exact .inr (.inr (.inl ⟨p, _, .inl rfl, hp.1, hp.2, rfl⟩))
    · cases h
  | eepromWrite a bytes =>
    simp only [performEffect, State.writeEe] at h
    split at h
    · next hp => cases h; exact .inr (.inr (.inr (.inl ⟨a, bytes, rfl, hp, rfl⟩)))
    · cases h
  | cfgWrite slot v => cases h; exact .inr (.inr (.inr (.inr (.inl ⟨slot, v, rfl, rfl⟩))))
  | rwwEnable => cases h; exact .inr (.inr (.inr (.inr (.inr (.inl ⟨.inl rfl, rfl⟩)))))
  | indicatorToggle => cases h; exact .inr (.inr (.inr (.inr (.inr (.inl ⟨.inr (.inl rfl), rfl⟩)))))
  | indicatorOff => cases h; exact .inr (.inr (.inr (.inr (.inr (.inl ⟨.inr (.inr rfl), rfl⟩)))))
  | jump => cases h; exact .inr (.inr (.inr (.inr (.inr (.inr ⟨rfl, rfl⟩)))))

/-- Performing an effect faults only where a page or an EEPROM byte does not exist. -/
theorem performEffect_fault {e : Effect} {rest : List Effect} {s : State} {r : Fault}
    (h : performEffect e rest s = .fault r) :
    (∃ p bytes, (e = .flashWrite p bytes ∨
        e = .flashErase p ∧ bytes = List.replicate s.cfg.pageSize s.cfg.erasedByte) ∧
      ¬ (p < s.cfg.flashPages ∧ bytes.length ≤ s.cfg.pageSize)) ∨
    (∃ a bytes, e = .eepromWrite a bytes ∧ ¬ a + bytes.length ≤ s.cfg.eepromSize) := by
  cases e with
  | send c p =>
    simp only [performEffect] at h
    split at h <;> cases h
  | flashErase p =>
    simp only [performEffect, State.writePage] at h
    split at h
    · cases h
    · exact .inl ⟨p, _, .inr ⟨rfl, rfl⟩, ‹_›⟩
  | flashWrite p bytes =>
    simp only [performEffect, State.writePage] at h
    split at h
    · cases h
    · exact .inl ⟨p, bytes, .inl rfl, ‹_›⟩
  | eepromWrite a bytes =>
    simp only [performEffect, State.writeEe] at h
    split at h
    · cases h
    · exact .inr ⟨a, bytes, rfl, ‹_›⟩
  | cfgWrite slot v => cases h
  | rwwEnable => cases h
  | indicatorToggle => cases h
  | indicatorOff => cases h
  | jump => cases h

/-- No effect is refused. -/
theorem performEffect_not_refused {e : Effect} {rest : List Effect} {s : State} {r : Refusal} :
    performEffect e rest s ≠ .refused r := by
  intro h
  cases e with
  | send c p => simp only [performEffect] at h; split at h <;> cases h
  | flashErase p => simp only [performEffect, State.writePage] at h; split at h <;> cases h
  | flashWrite p b => simp only [performEffect, State.writePage] at h; split at h <;> cases h
  | eepromWrite a b => simp only [performEffect, State.writeEe] at h; split at h <;> cases h
  | cfgWrite slot v => cases h
  | rwwEnable => cases h
  | indicatorToggle => cases h
  | indicatorOff => cases h
  | jump => cases h

theorem step_of_run {s : State} (h : s.nextEvent = .run) : step s = coreStep s.dropEvent := by
  simp only [step, h, stepEvent]

/-- At EXEC the BLPSM performs the head of `fx` (R300). -/
theorem step_of_effect {s : State} {e : Effect} {rest : List Effect} (h : s.nextEvent = .run)
    (hc : s.ctl = .exec) (hf : s.fx = e :: rest) : step s = performEffect e rest s.dropEvent := by
  rw [step_of_run h]
  simp [coreStep, hc, effectStep, hf]

/-- At POLL the BLPSM runs the frame at the head of `rxq` (R130). -/
theorem step_of_frame {s : State} {d : RxFrame} {rest : List RxFrame} {i : Instr} (h : s.nextEvent = .run)
    (hc : s.ctl = .poll) (hs : s.sup ≠ .runningApplication) (hr : s.rxq = d :: rest) (hd : decode d = .ok i) :
    step s = exec i { s.dropEvent with rxq := rest } := by
  rw [step_of_run h]
  simp [coreStep, hc, frameStep, hs, hr, hd]

/-- The moves by which a step can answer a next state, each with what it does. -/
inductive Moves (s : State) : State → Prop where
  /-- no move is enabled for the agent whose turn it is, or an arriving frame is lost -/
  | waits : Moves s s.dropEvent
  /-- a frame step (R130) -/
  | takesFrame {t : State} (d : RxFrame) (rest : List RxFrame) (i : Instr) : s.nextEvent = .run → s.ctl = .poll →
      s.sup ≠ .runningApplication → s.rxq = d :: rest → decode d = .ok i →
      exec i { s.dropEvent with rxq := rest } = .next t → Moves s t
  /-- an effect step (R300) -/
  | performs {t : State} (e : Effect) (rest : List Effect) : s.nextEvent = .run → s.ctl = .exec → s.fx = e :: rest →
      performEffect e rest s.dropEvent = .next t → Moves s t
  /-- the grace timer runs out (R243) -/
  | expires : s.nextEvent = .expire → s.sup = .waitingForFirstFrame → s.timer = .armed → s.ctl = .poll →
      Moves s { s.dropEvent with
        timer := .expired, sup := .runningApplication, fx := s.fx ++ [.indicatorOff, .jump], ctl := .exec }
  /-- a frame arrives (R304) -/
  | arrives (d : RxFrame) : s.nextEvent = .arrive d → d.wf = true → s.rxq.length < s.cfg.rxDepth →
      Moves s { s.dropEvent with rxq := s.rxq ++ [d] }
  /-- Transport takes the head of `txq` (R304) -/
  | transmits : s.nextEvent = .transmit → Moves s { s.dropEvent with txq := s.txq.drop 1 }
  /-- a new power cycle (R290) -/
  | cycles (drawn : List Byte) : s.nextEvent = .powerCycle drawn → Moves s (powerCycle drawn s.dropEvent)

/-- Everything a step that answers a next state can do. -/
theorem step_moves {s t : State} (h : step s = .next t) : Moves s t := by
  unfold step at h
  cases he : s.nextEvent with
  | run =>
    simp only [he, stepEvent, coreStep, State.dropEvent_ctl] at h
    split at h
    · next hc =>
      unfold frameStep at h
      split at h
      · cases h; exact .waits
      · next hs =>
        split at h
        · cases h; exact .waits
        · next d rest hr =>
          split at h
          · exact .takesFrame d rest _ he hc hs hr ‹_› h
          · cases h
    · next hc =>
      unfold effectStep at h
      split at h
      · cases h; exact .waits
      · exact .performs _ _ he hc ‹_› h
    · cases h
  | expire =>
    simp only [he, stepEvent, expireTimer] at h
    split at h
    · next hc =>
      cases h
      have e : (State.emit { s.dropEvent with timer := .expired, sup := .runningApplication }
          [.indicatorOff, .jump]).settle = { s.dropEvent with
            timer := .expired, sup := .runningApplication, fx := s.fx ++ [.indicatorOff, .jump], ctl := .exec } := by
        simp [State.emit, State.settle]
      rw [e]
      exact .expires he hc.1 hc.2.1 hc.2.2
    · cases h; exact .waits
  | arrive d =>
    simp only [he, stepEvent, arriveFrame] at h
    split at h
    · next hd =>
      split at h
      · cases h; exact .arrives d he (decode_ok_wf hd).1 ‹_›
      · cases h; exact .waits
    · cases h
  | transmit => simp only [he, stepEvent] at h; cases h; exact .transmits he
  | powerCycle drawn => simp only [he, stepEvent] at h; cases h; exact .cycles drawn he

end Sys2Proof.Machine
end

