-- ==== Sys2Proof/Tests/Slice0.lean ====
section
/-! SUPPORT. The model's own tests, each expected result from 95_test_vectors.md (the row is named) or worked by hand from
the rule named; then one witness `witness_<Name>` for every statement with hypotheses. -/

namespace Sys2Proof.Tests

open Sys2Proof Sys2Proof.Machine

/-! ### Helpers -/

/-- The outcome is a next state with the property. -/
def ok (o : Host.Outcome State Fault Refusal) (p : State → Bool) : Bool :=
  match o with
  | .next t => p t
  | .fault _ => false
  | .refused _ => false

theorem ok_next {o : Host.Outcome State Fault Refusal} {p : State → Bool} (h : ok o p = true) :
    ∃ t, o = .next t ∧ p t = true := by
  cases o with
  | next t => exact ⟨t, rfl, h⟩
  | fault e => cases h
  | refused e => cases h

/-- The "ACTIVE state" of 95_test_vectors.md §0. -/
def active : State := { State.reset with sup := .active, timer := .stopped }

/-- The start of 95_test_vectors.md §2.3: after `SET_ADDRESS [00 03 00 00]`. -/
def collecting : State := { active with msg := 1, phase := .collectingPage, targetPage := 3 }

/-- The raw frame of 95_test_vectors.md, delivered. -/
def raw (bytes : List Byte) : RxFrame := ⟨bytes, bytes.length - 4⟩

/-- One step of `s` with the frame at the head of `rxq`. -/
def recv (s : State) (bytes : List Byte) : Host.Outcome State Fault Refusal := step { s with rxq := [raw bytes] }

/-- Fields of a frame to board 05, chunk counter 0. -/
def to5 (number : Byte) (payload : List Byte) : Fields := ⟨0x05, number, 0, payload⟩

/-- A small build: pages of 8 bytes, two chunks, two writable pages. -/
def small : Config := { Config.reference with pageSize := 8, maxPages := 2, flashPages := 4, readFlashPageLimit := 3, txSlots := 2 }

/-- The small build with an effect list to perform. -/
def performing (fx : List Effect) : State := { active with cfg := small, ctl := .exec, fx := fx }

/-! ### Well-formedness refuses -/

theorem test_wf_payload_of_five : (to5 1 [1, 2, 3, 4, 5]).wf = false := by decide
theorem test_wf_instr_payload_of_five : (Instr.data (to5 1 [1, 2, 3, 4, 5])).wf = false := by decide
theorem test_wf_unrecognized_assigned_code : (Instr.unrecognizedRequest 11 (to5 1 [])).wf = false := by decide
theorem test_wf_frame_length_above_four : RxFrame.wf ⟨[5, 0, 1, 0, 1, 2, 3, 4, 5], 5⟩ = false := by decide
theorem test_wf_frame_short_header : RxFrame.wf ⟨[5, 0, 1], 0⟩ = false := by decide
theorem test_wf_frame_length_mismatch : RxFrame.wf ⟨[5, 0, 1, 0, 9], 0⟩ = false := by decide
theorem test_wf_page_size_zero : ¬ Config.wf { small with pageSize := 0 } := by decide
theorem test_wf_page_size_not_multiple : ¬ Config.wf { small with pageSize := 10 } := by decide
theorem test_wf_too_many_chunks : ¬ Config.wf { small with pageSize := 4 * 65536 } := by decide
theorem test_wf_class_of_128 : ¬ Config.wf { Config.reference with pageSizeClass := 1 } := by decide
theorem test_wf_read_limit_below_writable : ¬ Config.wf { small with readFlashPageLimit := 1 } := by decide
theorem test_wf_read_limit_above_flash : ¬ Config.wf { small with readFlashPageLimit := 5 } := by decide
theorem test_wf_eeprom_too_large : ¬ Config.wf { small with eepromSize := 65537 } := by decide
theorem test_wf_no_receive_slot : ¬ Config.wf { small with rxDepth := 0 } := by decide
theorem test_wf_no_transmit_slot : ¬ Config.wf { small with txSlots := 0 } := by decide
theorem test_wf_reference : Config.reference.wf ∧ small.wf := by decide

/-! ### Decoding: a word of every constructor, written out from 30_encoding.md R100–R104 and spec/opcode_table.json -/

theorem test_decode_noOperation : decode ⟨[0x05, 0b00000000, 0x01, 0x00], 0⟩ = .ok (.noOperation (to5 1 [])) := rfl
theorem test_decode_identify : decode ⟨[0x05, 0b00000001, 0x01, 0x00], 0⟩ = .ok (.identify (to5 1 [])) := rfl
theorem test_decode_setAddress : decode ⟨[0x05, 0b00000010, 0x02, 0x00, 0x00, 0x03, 0x00, 0x1F], 4⟩ =
    .ok (.setAddress (to5 2 [0x00, 0x03, 0x00, 0x1F])) := rfl
theorem test_decode_data : decode ⟨[0x05, 0b00000011, 0x02, 0b10000010, 0x11, 0x22, 0x33, 0x44], 4⟩ =
    .ok (.data ⟨0x05, 0x02, 0x82, [0x11, 0x22, 0x33, 0x44]⟩) := rfl
theorem test_decode_startApp : decode ⟨[0x05, 0b00000100, 0x25, 0x00], 0⟩ = .ok (.startApp (to5 0x25 [])) := rfl
theorem test_decode_readFlash : decode ⟨[0x05, 0b00000101, 0x23, 0x00, 0x00, 0x03, 0x00, 0x01], 4⟩ =
    .ok (.readFlash (to5 0x23 [0x00, 0x03, 0x00, 0x01])) := rfl
theorem test_decode_getFusebits : decode ⟨[0x05, 0b00000110, 0x01, 0x00], 0⟩ = .ok (.getFusebits (to5 1 [])) := rfl
theorem test_decode_chipErase : decode ⟨[0x05, 0b00000111, 0x01, 0x00], 0⟩ = .ok (.chipErase (to5 1 [])) := rfl
theorem test_decode_readEeprom : decode ⟨[0x05, 0b00001000, 0x01, 0x00, 0x00, 0x10, 0x02], 3⟩ =
    .ok (.readEeprom (to5 1 [0x00, 0x10, 0x02])) := rfl
theorem test_decode_writeEeprom : decode ⟨[0x05, 0b00001001, 0x01, 0x00, 0x00, 0x10, 0xAA, 0xBB], 4⟩ =
    .ok (.writeEeprom (to5 1 [0x00, 0x10, 0xAA, 0xBB])) := rfl
theorem test_decode_setBoardId : decode ⟨[0x05, 0b00001010, 0x01, 0x00, 0x07], 1⟩ = .ok (.setBoardId (to5 1 [0x07])) := rfl
theorem test_decode_setBitrate : decode ⟨[0x05, 0b00001011, 0x01, 0x00, 0x07], 1⟩ = .ok (.setBitrate (to5 1 [0x07])) := rfl
theorem test_decode_unrecognizedRequest :
    decode ⟨[0x05, 0b00001100, 0x01, 0x00, 0x01], 1⟩ = .ok (.unrecognizedRequest 12 (to5 1 [0x01])) ∧
    decode ⟨[0x05, 0b00111111, 0x01, 0x00], 0⟩ = .ok (.unrecognizedRequest 63 (to5 1 [])) := ⟨rfl, rfl⟩
theorem test_decode_ignoredKindSuccess :
    decode ⟨[0x05, 0b01000001, 0x01, 0x00], 0⟩ = .ok (.ignoredKindSuccess 1 (to5 1 [])) := rfl
theorem test_decode_ignoredKindError :
    decode ⟨[0x05, 0b10000001, 0x01, 0x00], 0⟩ = .ok (.ignoredKindError 1 (to5 1 [])) := rfl
theorem test_decode_ignoredKindWrongNumber :
    decode ⟨[0xFF, 0b11000000, 0x01, 0x00], 0⟩ = .ok (.ignoredKindWrongNumber 0 ⟨0xFF, 0x01, 0x00, []⟩) := rfl
theorem test_decode_short_header : decode ⟨[0x05, 0x01, 0x01], 0⟩ = .error .shortHeader := rfl
theorem test_decode_payload_too_long : decode ⟨[0x05, 0x01, 0x01, 0x00, 1, 2, 3, 4, 5], 5⟩ = .error .payloadTooLong := rfl
theorem test_decode_length_mismatch : decode ⟨[0x05, 0x01, 0x01, 0x00, 1], 2⟩ = .error .lengthMismatch := rfl

/-! ### The opcode-table words (notes/assumptions/11.md) -/

theorem test_table_identify : decodeTableWord 8 0x01 = some (.identify ⟨0, 0, 0, []⟩) := by decide
theorem test_table_setAddress : decodeTableWord 8 0x02 = some (.setAddress ⟨0, 0, 0, [0, 0, 0, 0]⟩) := by decide
theorem test_table_unrecognized : decodeTableWord 8 0x3F = some (.unrecognizedRequest 63 ⟨0, 0, 0, []⟩) := by decide
theorem test_table_ignored : decodeTableWord 8 0xC5 = some (.ignoredKindWrongNumber 5 ⟨0, 0, 0, []⟩) := by decide
/-- From reset the placed word runs: IDENTIFY's own effect, from R191 with the parameters of 95 §0. -/
theorem test_table_runs_identify : ok (step (State.reset.withFetchWord 8 0x01)) (fun t =>
    t.fx == [.send 0x41 [0x12, 0x02, 0x00, 0x60]] && t.sup == .active && t.msg == 0) = true := by decide
/-- WRITE_EEPROM of address 0 and one byte 0 (R218). -/
theorem test_table_runs_writeEeprom : ok (step (State.reset.withFetchWord 8 0x09)) (fun t =>
    t.fx == [.eepromWrite 0 [0], .send 0x49 []]) = true := by decide

/-! ### The instructions (95_test_vectors.md §1, §2) -/

/-- V3 -/
theorem test_noOperation_multicast : ok (recv State.reset [0xFF, 0x00, 0x01, 0x00]) (fun t =>
    t.fx == [.indicatorToggle] && t.sup == .active && t.timer == .stopped && t.msg == 1) = true := by decide
/-- V69 -/
theorem test_noOperation_length : ok (recv active [0x05, 0x00, 0x01, 0x00, 0x01]) (fun t =>
    t.fx == [.send 0x80 [0x01]] && t.msg == 1) = true := by decide
/-- V13 -/
theorem test_identify_wraps : ok (recv { active with msg := 0xFF } [0x05, 0x01, 0x00, 0x00]) (fun t =>
    t.fx == [.send 0x41 [0x12, 0x02, 0x00, 0x60]] && t.msg == 0) = true := by decide
/-- V12 -/
theorem test_identify_retransmission : ok (recv { active with msg := 5 } [0x05, 0x01, 0x05, 0x00]) (fun t =>
    t.fx == [.send 0xC1 []] && t.msg == 5) = true := by decide
/-- V42 -/
theorem test_setAddress_last_slot : ok (recv active [0x05, 0x02, 0x01, 0x00, 0x00, 0x5F, 0x00, 0x1F]) (fun t =>
    t.fx == [.send 0x42 [0x00, 0x5F, 0x00, 0x1F]] && t.targetPage == 0x5F && t.bufferOffset == 31 &&
    t.phase == .collectingPage) = true := by decide
/-- S6 -/
theorem test_setAddress_offset_out_of_range : ok (recv collecting [0x05, 0x02, 0x02, 0x00, 0x00, 0x02, 0x00, 0x20]) (fun t =>
    t.fx == [.send 0x82 [0x00, 0x02, 0x00, 0x20]] && t.phase == .collectingPage && t.targetPage == 3 && t.msg == 2) = true := by
  decide
/-- V22 -/
theorem test_data_start_of_group : ok (recv collecting [0x05, 0x03, 0x02, 0x82, 0x11, 0x22, 0x33, 0x44]) (fun t =>
    t.fx == [] && t.ctl == .poll && t.bufferOffset == 1 && t.chunk == 1 &&
    t.pageBuffer.readBytes 0 5 == [0x11, 0x22, 0x33, 0x44, 0x00]) = true := by decide
/-- V29 on pages of 8 bytes: the last slot, the bytes of slot 0 as they were. -/
theorem test_data_commit :
    ok (recv { collecting with cfg := small, targetPage := 1, bufferOffset := 1, pageBuffer := [(1, 0x77)] }
      [0x05, 0x03, 0x02, 0x00, 1, 2, 0, 4]) (fun t =>
    t.fx == [.flashErase 1, .flashWrite 1 [0, 0x77, 0, 0, 1, 2, 0, 4], .rwwEnable, .send 0x43 [0, 1]] &&
    t.bufferOffset == 0 && t.targetPage == 2 && t.phase == .collectingPage) = true := by decide
/-- V46 -/
theorem test_startApp : ok (recv active [0x05, 0x04, 0x01, 0x00]) (fun t =>
    t.fx == [.send 0x44 [], .jump] && t.sup == .active && t.ctl == .exec) = true := by decide
/-- V48, the page's second slot alone filled (page 3 starts at 0x180). -/
theorem test_readFlash : ok (recv { active with pm := [(0x183, 3), (0x184, 4), (0x185, 5), (0x186, 6), (0x187, 7)] }
    [0x05, 0x05, 0x01, 0x00, 0x00, 0x03, 0x00, 0x01]) (fun t => t.fx == [.send 0x45 [4, 5, 6, 7]]) = true := by decide
/-- V18 -/
theorem test_readFlash_absent : ok (recv { active with cfg := { Config.reference with optReadFlash := false } }
    [0x05, 0x05, 0x01, 0x00, 0, 0, 0, 0]) (fun t => t.fx == [.send 0x85 [0, 0, 0, 0]] && t.msg == 1) = true := by decide
/-- V52 -/
theorem test_getFusebits : ok (recv active [0x05, 0x06, 0x01, 0x00]) (fun t =>
    t.fx == [.send 0x46 [0x0A, 0x0B, 0x0C, 0x0D]]) = true := by decide
/-- V53 on two writable pages. -/
theorem test_chipErase : ok (recv { active with cfg := small } [0x05, 0x07, 0x01, 0x00]) (fun t =>
    t.fx == [.flashErase 0, .flashErase 1, .rwwEnable, .send 0x47 []]) = true := by decide
/-- V58 -/
theorem test_readEeprom_top : ok (recv { active with ee := [(0x1FC, 1), (0x1FF, 4)] } [0x05, 0x08, 0x01, 0x00, 0x01, 0xFC, 0x04])
    (fun t => t.fx == [.send 0x48 [1, 0, 0, 4]]) = true := by decide
/-- V59 -/
theorem test_readEeprom_past_the_top : ok (recv active [0x05, 0x08, 0x01, 0x00, 0x01, 0xFF, 0x02]) (fun t =>
    t.fx == [.send 0x88 [0x01, 0xFF, 0x02]]) = true := by decide
/-- S4 -/
theorem test_writeEeprom_no_data : ok (recv active [0x05, 0x09, 0x01, 0x00, 0x00, 0x10]) (fun t =>
    t.fx == [.send 0x89 [0x00, 0x10]] && t.msg == 1) = true := by decide
/-- V61 -/
theorem test_writeEeprom_last_byte : ok (recv active [0x05, 0x09, 0x01, 0x00, 0x01, 0xFF, 0x5A]) (fun t =>
    t.fx == [.eepromWrite 0x1FF [0x5A], .send 0x49 []]) = true := by decide
/-- V63 -/
theorem test_setBoardId : ok (recv active [0x05, 0x0A, 0x01, 0x00, 0x07]) (fun t =>
    t.fx == [.cfgWrite .board 0x07, .send 0x4A []] && t.board == 0x05) = true := by decide
/-- V64 -/
theorem test_setBoardId_multicast : ok (recv active [0x05, 0x0A, 0x01, 0x00, 0xFF]) (fun t =>
    t.fx == [.send 0x8A [0xFF]]) = true := by decide
/-- V66 -/
theorem test_setBitrate_last_code : ok (recv active [0x05, 0x0B, 0x01, 0x00, 0x07]) (fun t =>
    t.fx == [.cfgWrite .bitrate 0x07, .send 0x4B []]) = true := by decide
/-- V67 -/
theorem test_setBitrate_out_of_range : ok (recv active [0x05, 0x0B, 0x01, 0x00, 0x08]) (fun t =>
    t.fx == [.send 0x8B [0x08]]) = true := by decide
/-- V16 -/
theorem test_unrecognized_sentinel : ok (recv active [0x05, 0x3F, 0x01, 0x00]) (fun t =>
    t.fx == [.send 0xBF []] && t.msg == 1) = true := by decide
/-- V14 -/
theorem test_unrecognized_wrong_number : ok (recv active [0x05, 0x0C, 0x02, 0x00, 0x01]) (fun t =>
    t.fx == [.send 0xCC []] && t.msg == 0) = true := by decide
/-- V4 -/
theorem test_ignoredKindSuccess : ok (recv State.reset [0x05, 0x41, 0x01, 0x00]) (fun t =>
    t.fx == [] && t.ctl == .poll && t.sup == .active && t.timer == .stopped && t.msg == 0) = true := by decide
/-- V6 -/
theorem test_ignoredKindError : ok (recv active [0x05, 0x81, 0x01, 0x00]) (fun t =>
    t.fx == [] && t.msg == 0 && t.rxq == []) = true := by decide
/-- V5 -/
theorem test_ignoredKindWrongNumber_multicast : ok (recv State.reset [0xFF, 0xC0, 0x01, 0x00]) (fun t =>
    t.fx == [] && t.sup == .active && t.msg == 0) = true := by decide

/-! ### The filter, the supervisor, the effects and the power (95_test_vectors.md §2.1, §2.5, §2.6; R302) -/

/-- V2 -/
theorem test_filter_multicast_identify : ok (recv State.reset [0xFF, 0x01, 0x01, 0x00]) (fun t =>
    t.fx == [] && t.sup == .waitingForFirstFrame && t.timer == .armed && t.rxq == []) = true := by decide
/-- V82: expiry first, with a frame waiting. -/
theorem test_expiry_first : ok (step { State.reset with rxq := [raw [0x05, 0x01, 0x01, 0x00]], events := [.expire] }) (fun t =>
    t.fx == [.indicatorOff, .jump] && t.timer == .expired && t.sup == .runningApplication && t.ctl == .exec) = true := by
  decide
/-- V84 -/
theorem test_expiry_in_active : ok (step { active with events := [.expire] }) (fun t =>
    t.sup == .active && t.timer == .stopped && t.fx == []) = true := by decide
/-- R302: erasing page 1 of 8-byte pages reads 0xFF there and nowhere else. -/
theorem test_perform_flashErase : ok (step { performing [.flashErase 1] with pm := [(7, 1), (9, 1), (16, 1)] }) (fun t =>
    t.pm.readBytes 6 12 == [0, 1, 0xFF, 0xFF, 0xFF, 0xFF, 0xFF, 0xFF, 0xFF, 0xFF, 1, 0] && t.ctl == .poll) = true := by decide
/-- V90, V91 -/
theorem test_power_cycle_latches_board :
    ok (step { active with slotBoard := 0x07, events := [.powerCycle []] }) (fun t => t.board == 0x07) = true ∧
    ok (step { active with slotBoard := 0xFF, events := [.powerCycle []] }) (fun t => t.board == 0x00) = true := by decide

/-! ### Witnesses: the hypotheses of every statement that has any are met, clause by clause -/

theorem witness_DecodeOfEncodeIsTheInstruction :
    (Instr.setAddress (to5 1 [0, 3, 0, 0])).wf = true ∧ (Instr.unrecognizedRequest 12 (to5 1 [])).wf = true ∧
    (Instr.unrecognizedRequest 63 (to5 1 [])).wf = true ∧ (Instr.ignoredKindWrongNumber 63 (to5 1 [])).wf = true := by decide

theorem witness_EncodeOfDecodeIsTheFrame :
    decode ⟨[0x05, 0x0C, 0x01, 0x00, 0x01], 1⟩ = .ok (.unrecognizedRequest 12 (to5 1 [0x01])) := rfl

theorem witness_MalformedDeliveriesAreRejectedByName :
    (RxFrame.mk [5, 1, 1] 0).bytes.length < 4 ∧
    (4 ≤ (RxFrame.mk [5, 1, 1, 0] 5).bytes.length ∧ 4 < (RxFrame.mk [5, 1, 1, 0] 5).payloadLength) ∧
    (4 ≤ (RxFrame.mk [5, 1, 1, 0] 1).bytes.length ∧ (RxFrame.mk [5, 1, 1, 0] 1).payloadLength ≤ 4 ∧
      (RxFrame.mk [5, 1, 1, 0] 1).bytes.length ≠ 4 + (RxFrame.mk [5, 1, 1, 0] 1).payloadLength) ∧
    RxFrame.wf ⟨[5, 1, 1, 0], 0⟩ = true ∧ RxFrame.wf ⟨[5, 3, 1, 0, 1, 2, 3, 4], 4⟩ = true := by decide

theorem witness_InvisibleFrameChangesNothing :
    State.reset.ctl = .poll ∧ State.reset.fx = [] ∧ ¬ State.reset.Sees 1 0x07 ∧ ¬ State.reset.Sees 1 0xFF := by decide

theorem witness_OtherKindsAreIgnored :
    (Instr.ignoredKindSuccess 1 (to5 1 [])).kind ≠ 0 ∧ (Instr.ignoredKindError 1 (to5 1 [])).kind ≠ 0 ∧
    (Instr.ignoredKindWrongNumber 1 (to5 1 [])).kind ≠ 0 ∧ State.reset.ctl = .poll ∧ State.reset.fx = [] ∧
    State.reset.Sees 1 0x05 ∧ State.reset.Sees 0 0xFF := by decide

theorem witness_WrongNumberIsAnsweredAndNotAdvanced :
    (Instr.identify (to5 0 [])).kind = 0 ∧ active.Sees 1 0x05 ∧ ¬ active.Expects 0 ∧ ¬ active.Expects 2 ∧
    ¬ { active with msg := 0xFF }.Expects 0xFF := by decide

theorem witness_OnlyAcceptanceAdvancesTheNumber :
    (∃ t, exec (.identify (to5 0 [])) { active with msg := 0xFF } = .next t ∧ (Instr.identify (to5 0 [])).kind = 0 ∧
      { active with msg := 0xFF }.Accepts 1 (to5 0 [])) ∧
    (∃ t, exec (.identify (to5 2 [])) active = .next t ∧
      ¬ ((Instr.identify (to5 2 [])).kind = 0 ∧ active.Accepts 1 (to5 2 []))) ∧
    (∃ t, step (performing [.rwwEnable]) = .next t ∧ (∀ pb, (performing [.rwwEnable]).nextEvent ≠ .powerCycle pb) ∧
      ¬ ((performing [.rwwEnable]).nextEvent = .run ∧ (performing [.rwwEnable]).ctl = .poll ∧
        (performing [.rwwEnable]).sup ≠ .runningApplication ∧ (performing [.rwwEnable]).rxq ≠ [])) ∧
    (∃ t, step { active with events := [.transmit] } = .next t ∧
      (∀ pb, { active with events := [.transmit] }.nextEvent ≠ .powerCycle pb) ∧
      ¬ ({ active with events := [.transmit] }.nextEvent = .run ∧ { active with events := [.transmit] }.ctl = .poll ∧
        { active with events := [.transmit] }.sup ≠ .runningApplication ∧
        { active with events := [.transmit] }.rxq ≠ [])) := by
  refine ⟨?_, ?_, ?_, ?_⟩
  · obtain ⟨t, h, _⟩ := ok_next (p := fun _ => true) (o := exec (.identify (to5 0 [])) { active with msg := 0xFF }) (by decide)
    exact ⟨t, h, by decide⟩
  · obtain ⟨t, h, _⟩ := ok_next (p := fun _ => true) (o := exec (.identify (to5 2 [])) active) (by decide)
    exact ⟨t, h, by decide⟩
  · obtain ⟨t, h, _⟩ := ok_next (p := fun _ => true) (o := step (performing [.rwwEnable])) (by decide)
    exact ⟨t, h, fun _ => nofun, by decide⟩
  · obtain ⟨t, h, _⟩ := ok_next (p := fun _ => true) (o := step { active with events := [.transmit] }) (by decide)
    exact ⟨t, h, fun _ => nofun, by decide⟩

theorem witness_FirstVisibleFrameStopsTheTimer :
    (∃ t, exec (.ignoredKindSuccess 1 (to5 5 [])) State.reset = .next t ∧ State.reset.sup = .waitingForFirstFrame ∧
      State.reset.Sees 1 0x05) ∧
    (∃ t, exec (.identify (to5 1 [])) active = .next t ∧ active.sup = .active) ∧
    (∃ t, exec (.identify ⟨0xFF, 1, 0, []⟩) State.reset = .next t ∧ ¬ State.reset.Sees 1 0xFF) := by
  refine ⟨?_, ?_, ?_⟩
  · obtain ⟨t, h, _⟩ := ok_next (p := fun _ => true) (o := exec (.ignoredKindSuccess 1 (to5 5 [])) State.reset) (by decide)
    exact ⟨t, h, by decide⟩
  · obtain ⟨t, h, _⟩ := ok_next (p := fun _ => true) (o := exec (.identify (to5 1 [])) active) (by decide)
    exact ⟨t, h, by decide⟩
  · obtain ⟨t, h, _⟩ := ok_next (p := fun _ => true) (o := exec (.identify ⟨0xFF, 1, 0, []⟩) State.reset) (by decide)
    exact ⟨t, h, by decide⟩

theorem witness_OnlyRepliesToTheRequestAreSent :
    ∃ t, (Instr.readFlash (to5 1 [0, 0, 0, 1])).wf = true ∧ exec (.readFlash (to5 1 [0, 0, 0, 1])) active = .next t ∧
      Effect.send 0x45 [0, 0, 0, 0] ∈ t.fx := by
  obtain ⟨t, h, hp⟩ := ok_next (p := fun t => t.fx == [Effect.send 0x45 [0, 0, 0, 0]])
    (o := exec (.readFlash (to5 1 [0, 0, 0, 1])) active) (by decide)
  exact ⟨t, by decide, h, by simp [eq_of_beq hp]⟩

theorem witness_EmittedFlashEffectsStayInTheWritableRegion :
    ∃ t, (Instr.chipErase (to5 1 [])).wf = true ∧ exec (.chipErase (to5 1 [])) { active with cfg := small } = .next t ∧
      Effect.flashErase 1 ∈ t.fx := by
  obtain ⟨t, h, hp⟩ := ok_next (p := fun t => t.fx == [.flashErase 0, .flashErase 1, .rwwEnable, .send 0x47 []])
    (o := exec (.chipErase (to5 1 [])) { active with cfg := small }) (by decide)
  exact ⟨t, by decide, h, by simp [eq_of_beq hp]⟩

theorem witness_FrameStepsTouchNoMemoryAndNoPort : ∃ t, exec (.writeEeprom (to5 1 [0, 0x10, 0xAA])) active = .next t := by
  obtain ⟨t, h, _⟩ := ok_next (p := fun _ => true) (o := exec (.writeEeprom (to5 1 [0, 0x10, 0xAA])) active) (by decide)
  exact ⟨t, h⟩

theorem witness_OtherCommandsLeaveTheSession :
    (∃ t, exec (.setAddress (to5 1 [0, 3, 0, 0])) active = .next t ∧ ∀ f, Instr.setAddress (to5 1 [0, 3, 0, 0]) ≠ .data f) ∧
    (∃ t, exec (.identify (to5 1 [])) active = .next t ∧ (∀ f, Instr.identify (to5 1 []) ≠ .data f) ∧
      ∀ f, Instr.identify (to5 1 []) ≠ .setAddress f) := by
  refine ⟨?_, ?_⟩
  · obtain ⟨t, h, _⟩ := ok_next (p := fun _ => true) (o := exec (.setAddress (to5 1 [0, 3, 0, 0])) active) (by decide)
    exact ⟨t, h, fun _ => nofun⟩
  · obtain ⟨t, h, _⟩ := ok_next (p := fun _ => true) (o := exec (.identify (to5 1 [])) active) (by decide)
    exact ⟨t, h, fun _ => nofun, fun _ => nofun⟩

theorem witness_DataWritesOnlyItsSlot :
    (∃ t, exec (.data (to5 2 [1, 2, 3, 4])) collecting = .next t ∧ collecting.TakesChunk (to5 2 [1, 2, 3, 4])) ∧
    (∃ t, exec (.data (to5 1 [1, 2, 3, 4])) active = .next t ∧ ¬ active.TakesChunk (to5 1 [1, 2, 3, 4])) := by
  refine ⟨?_, ?_⟩
  · obtain ⟨t, h, _⟩ := ok_next (p := fun _ => true) (o := exec (.data (to5 2 [1, 2, 3, 4])) collecting) (by decide)
    exact ⟨t, h, by decide⟩
  · obtain ⟨t, h, _⟩ := ok_next (p := fun _ => true) (o := exec (.data (to5 1 [1, 2, 3, 4])) active) (by decide)
    exact ⟨t, h, by decide⟩

/-- One ill-sized payload for each command with a length of its own. -/
theorem witness_WrongLengthIsAnErrorAndNothingElse :
    ((Instr.identify (to5 1 [0])).lengthWrong = true ∧ (Instr.identify (to5 1 [0])).present active.cfg = true ∧
      active.Accepts 1 (to5 1 [0])) ∧
    ((Instr.setAddress (to5 1 [0, 3, 0])).lengthWrong = true ∧ (Instr.setAddress (to5 1 [0, 3, 0])).present active.cfg = true ∧
      active.Accepts 2 (to5 1 [0, 3, 0])) ∧
    ((Instr.readEeprom (to5 1 [0, 0, 1, 1])).lengthWrong = true ∧
      (Instr.readEeprom (to5 1 [0, 0, 1, 1])).present active.cfg = true ∧ active.Accepts 8 (to5 1 [0, 0, 1, 1])) ∧
    ((Instr.writeEeprom (to5 1 [0, 16])).lengthWrong = true ∧ (Instr.writeEeprom (to5 1 [0, 16])).present active.cfg = true ∧
      active.Accepts 9 (to5 1 [0, 16])) := by decide

theorem witness_AbsentOptionalCommandsAreUnrecognised :
    (Instr.readFlash (to5 1 [0, 0, 0, 0])).present { Config.reference with optReadFlash := false } = false ∧
    { active with cfg := { Config.reference with optReadFlash := false } }.Accepts 5 (to5 1 [0, 0, 0, 0]) := by decide

theorem witness_UnrecognisedRequestIsEchoed :
    active.Accepts 12 (to5 1 [1]) ∧ active.Accepts 63 (to5 1 []) := by decide

theorem witness_NoOperationTogglesTheIndicatorSilently :
    (active.Accepts 0 ⟨0xFF, 1, 0, []⟩ ∧ (Fields.mk 0xFF 1 0 []).payload = []) ∧
    (active.Accepts 0 (to5 1 [1]) ∧ (to5 1 [1]).payload ≠ []) := by decide

theorem witness_IdentifyReportsTheConfiguration :
    (active.Accepts 1 (to5 1 []) ∧ (to5 1 []).payload = []) ∧
    (active.Accepts 1 (to5 1 [0]) ∧ (to5 1 [0]).payload ≠ []) := by decide

/-- The page alone at its bound, and the offset alone at its bound. -/
theorem witness_SetAddressOutOfRangeIsRejected :
    (active.Accepts 2 (to5 1 [0, 3, 0]) ∧ (to5 1 [0, 3, 0]).payload.length ≠ 4) ∧
    (active.Accepts 2 (to5 1 [0, 0x60, 0, 0]) ∧ active.cfg.maxPages.toNat ≤ (0 : Byte).toNat * 256 + (0x60 : Byte).toNat) ∧
    (active.Accepts 2 (to5 1 [0, 0, 0, 0x20]) ∧ active.cfg.pageSize / 4 ≤ (0 : Byte).toNat * 256 + (0x20 : Byte).toNat) := by
  decide

theorem witness_SetAddressStartsATransfer :
    active.Accepts 2 (to5 1 [0, 0x5F, 0, 0x1F]) ∧ (0 : Byte).toNat * 256 + (0x5F : Byte).toNat < active.cfg.maxPages.toNat ∧
    (0 : Byte).toNat * 256 + (0x1F : Byte).toNat < active.cfg.pageSize / 4 := by decide

theorem witness_StartAppRepliesThenJumps :
    (active.Accepts 4 (to5 1 []) ∧ (to5 1 []).payload = []) ∧
    (active.Accepts 4 (to5 1 [0]) ∧ (to5 1 [0]).payload ≠ []) := by decide

theorem witness_ReadFlashRepliesTheFourBytes :
    active.cfg.wf ∧ active.cfg.optReadFlash = true ∧ active.Accepts 5 (to5 1 [0, 0x7F, 0, 0x1F]) ∧
    (0 : Byte).toNat * 256 + (0x7F : Byte).toNat < active.cfg.readFlashPageLimit ∧
    (0 : Byte).toNat * 256 + (0x1F : Byte).toNat < active.cfg.pageSize / 4 := by decide

theorem witness_ReadFlashOutOfBoundsIsRejected :
    active.cfg.optReadFlash = true ∧
    (active.Accepts 5 (to5 1 [0, 0x80, 0, 0]) ∧
      active.cfg.readFlashPageLimit ≤ (0 : Byte).toNat * 256 + (0x80 : Byte).toNat) ∧
    (active.Accepts 5 (to5 1 [0, 0, 0, 0x20]) ∧ active.cfg.pageSize / 4 ≤ (0 : Byte).toNat * 256 + (0x20 : Byte).toNat) := by
  decide

theorem witness_GetFusebitsRepliesTheFuseBytes :
    (active.Accepts 6 (to5 1 []) ∧ active.cfg.optGetFusebits = true ∧ (to5 1 []).payload = []) ∧
    (active.Accepts 6 (to5 1 [0]) ∧ (to5 1 [0]).payload ≠ []) ∧
    ({ active with cfg := { Config.reference with optGetFusebits := false } }.Accepts 6 (to5 1 []) ∧
      { active with cfg := { Config.reference with optGetFusebits := false } }.cfg.optGetFusebits = false) := by decide

theorem witness_ChipEraseErasesEveryWritablePage :
    active.Accepts 7 (to5 1 []) ∧ active.cfg.optChipErase = true ∧ (to5 1 []).payload = [] ∧
    95 < active.cfg.maxPages.toNat := by decide

theorem witness_ReadEepromRepliesTheBytes :
    active.cfg.optReadEeprom = true ∧ active.Accepts 8 (to5 1 [0x01, 0xFC, 4]) ∧ 1 ≤ (4 : Byte).toNat ∧ (4 : Byte).toNat ≤ 4 ∧
    (0x01 : Byte).toNat * 256 + (0xFC : Byte).toNat + (4 : Byte).toNat ≤ active.cfg.eepromSize := by decide

theorem witness_ReadEepromOutOfBoundsIsRejected :
    active.cfg.optReadEeprom = true ∧
    (active.Accepts 8 (to5 1 [0, 0x10, 0]) ∧ (0 : Byte).toNat = 0) ∧
    (active.Accepts 8 (to5 1 [0, 0x10, 5]) ∧ 4 < (5 : Byte).toNat) ∧
    (active.Accepts 8 (to5 1 [0x01, 0xFF, 2]) ∧
      active.cfg.eepromSize < (0x01 : Byte).toNat * 256 + (0xFF : Byte).toNat + (2 : Byte).toNat) := by decide

theorem witness_WriteEepromEmitsTheWrite :
    active.cfg.optWriteEeprom = true ∧
    (active.Accepts 9 (to5 1 [0x01, 0xFF, 0x5A]) ∧
      (0x01 : Byte).toNat * 256 + (0xFF : Byte).toNat + (([] : List Byte).length + 1) ≤ active.cfg.eepromSize) ∧
    (active.Accepts 9 (to5 1 [0x01, 0xFF, 0x5A, 0x5B]) ∧
      active.cfg.eepromSize < (0x01 : Byte).toNat * 256 + (0xFF : Byte).toNat + ([(0x5B : Byte)].length + 1)) := by decide

theorem witness_SetBoardIdIsPersistedForTheNextBoot :
    active.cfg.optSetBoardId = true ∧ (active.Accepts 10 (to5 1 [0xFE]) ∧ (0xFE : Byte) ≠ active.cfg.multicastAddr) ∧
    (active.Accepts 10 (to5 1 [0xFF]) ∧ (0xFF : Byte) = active.cfg.multicastAddr) := by decide

theorem witness_SetBitrateIsPersistedForTheNextBoot :
    active.cfg.optSetBitrate = true ∧ (active.Accepts 11 (to5 1 [7]) ∧ (7 : Byte).toNat < 8) ∧
    (active.Accepts 11 (to5 1 [8]) ∧ 8 ≤ (8 : Byte).toNat) ∧
    (active.Accepts 11 (to5 1 []) ∧ (to5 1 []).payload.length ≠ 1) ∧
    ({ active with cfg := { Config.reference with optSetBitrate := false } }.Accepts 11 (to5 1 [7]) ∧
      { active with cfg := { Config.reference with optSetBitrate := false } }.cfg.optSetBitrate = false) := by decide

/-- Each precondition alone broken: the length, the offset, the phase. -/
theorem witness_DataPreconditionAbortsTheTransfer :
    (collecting.Accepts 3 (to5 2 [1, 2, 3]) ∧ ¬ collecting.Collects (to5 2 [1, 2, 3])) ∧
    ({ collecting with bufferOffset := 32 }.Accepts 3 (to5 2 [1, 2, 3, 4]) ∧
      ¬ { collecting with bufferOffset := 32 }.Collects (to5 2 [1, 2, 3, 4])) ∧
    (active.Accepts 3 (to5 1 [1, 2, 3, 4]) ∧ ¬ active.Collects (to5 1 [1, 2, 3, 4])) := by decide

theorem witness_StartOfGroupReloadsTheCountdown :
    (collecting.Accepts 3 ⟨5, 2, 0x80, [1, 2, 3, 4]⟩ ∧ collecting.Collects ⟨5, 2, 0x80, [1, 2, 3, 4]⟩ ∧
      StartsGroup ⟨5, 2, 0x80, [1, 2, 3, 4]⟩) ∧
    (collecting.Accepts 3 ⟨5, 2, 0xFF, [1, 2, 3, 4]⟩ ∧ collecting.Collects ⟨5, 2, 0xFF, [1, 2, 3, 4]⟩ ∧
      StartsGroup ⟨5, 2, 0xFF, [1, 2, 3, 4]⟩) := by decide

theorem witness_CountdownMismatchAbortsTheGroup :
    collecting.Accepts 3 ⟨5, 2, 0x7F, [1, 2, 3, 4]⟩ ∧ collecting.Collects ⟨5, 2, 0x7F, [1, 2, 3, 4]⟩ ∧
    ¬ StartsGroup ⟨5, 2, 0x7F, [1, 2, 3, 4]⟩ ∧ (Fields.mk 5 2 0x7F [1, 2, 3, 4]).chunkCounter ≠ collecting.chunk := by decide

theorem witness_NonTerminalChunkIsStoredSilently :
    (collecting.TakesChunk ⟨5, 2, 0x82, [1, 2, 3, 4]⟩ ∧ chunkCount ⟨5, 2, 0x82, [1, 2, 3, 4]⟩ ≠ 0) ∧
    ({ collecting with chunk := 5, bufferOffset := 31 }.TakesChunk ⟨5, 2, 0x05, [1, 2, 3, 4]⟩ ∧
      chunkCount ⟨5, 2, 0x05, [1, 2, 3, 4]⟩ ≠ 0) ∧ [(1 : Byte), 2, 3, 4][3]? = some 4 := by decide

theorem witness_TerminalChunkOfAPartialPageIsAcknowledged :
    collecting.TakesChunk ⟨5, 2, 0x80, [1, 2, 3, 4]⟩ ∧ collecting.TakesChunk (to5 2 [1, 2, 3, 4]) ∧
    chunkCount ⟨5, 2, 0x80, [1, 2, 3, 4]⟩ = 0 ∧ chunkCount (to5 2 [1, 2, 3, 4]) = 0 ∧ collecting.cfg.chunks ≤ 65535 ∧
    collecting.bufferOffset.toNat + 1 ≠ collecting.cfg.chunks := by decide

theorem witness_FullProtectedPageIsRefused :
    { collecting with bufferOffset := 31, targetPage := 0x60 }.TakesChunk (to5 2 [1, 2, 3, 4]) ∧
    chunkCount (to5 2 [1, 2, 3, 4]) = 0 ∧ collecting.cfg.chunks ≤ 65535 ∧ (31 : Half).toNat + 1 = collecting.cfg.chunks ∧
    collecting.cfg.maxPages.toNat ≤ (0x60 : Half).toNat := by decide

theorem witness_FullPageIsCommitted :
    { collecting with bufferOffset := 31, targetPage := 0x5F }.TakesChunk (to5 2 [1, 2, 3, 4]) ∧
    chunkCount (to5 2 [1, 2, 3, 4]) = 0 ∧ collecting.cfg.chunks ≤ 65535 ∧ (31 : Half).toNat + 1 = collecting.cfg.chunks ∧
    (0x5F : Half).toNat < collecting.cfg.maxPages.toNat := by decide

/-- A page of two chunks, in one group of two. -/
theorem witness_ChunksInOrderAssembleAndCommitThePage :
    let s : State := { collecting with cfg := small, targetPage := 1 }
    (s.cfg.wf ∧ s.fx = [] ∧ s.bufferOffset = 0 ∧ s.targetPage.toNat < s.cfg.maxPages.toNat ∧
      [Fields.mk 5 2 0x81 [1, 2, 3, 4], to5 3 [5, 6, 7, 8]].length = s.cfg.chunks ∧ chunkCount (to5 3 [5, 6, 7, 8]) = 0) ∧
    (s.feedChunks [⟨5, 2, 0x81, [1, 2, 3, 4]⟩, to5 3 [5, 6, 7, 8]]).isSome = true := by decide

theorem witness_StepRunsTheDecodedFrame :
    let s : State := { active with rxq := [raw [5, 1, 1, 0]] }
    s.nextEvent = .run ∧ s.ctl = .poll ∧ s.sup ≠ .runningApplication ∧ s.rxq = raw [5, 1, 1, 0] :: [] ∧
    decode (raw [5, 1, 1, 0]) = .ok (.identify (to5 1 [])) := ⟨rfl, rfl, by decide, rfl, rfl⟩

theorem witness_EmptyReceiveQueueIsAWait :
    active.nextEvent = .run ∧ active.ctl = .poll ∧ active.rxq = [] := by decide

theorem witness_HaltHasNoStep :
    { active with ctl := .halt }.nextEvent = .run ∧ { active with ctl := .halt }.ctl = .halt := by decide

/-- One slot free of two, and none. -/
theorem witness_SendWaitsForAFreeSlot :
    ((performing [.send 0x41 []]).nextEvent = .run ∧ (performing [.send 0x41 []]).ctl = .exec ∧
      (performing [.send 0x41 []]).fx = .send 0x41 [] :: []) ∧
    { performing [.send 0x41 []] with txq := [⟨0x41, []⟩] }.txq.length < small.txSlots ∧
    small.txSlots ≤ { performing [.send 0x41 []] with txq := [⟨0x41, []⟩, ⟨0x41, []⟩] }.txq.length := by decide

theorem witness_FlashEraseErasesThePage :
    (performing [.flashErase 3]).nextEvent = .run ∧ (performing [.flashErase 3]).ctl = .exec ∧
    (performing [.flashErase 3]).fx = .flashErase 3 :: [] ∧ 3 < small.flashPages := by decide

theorem witness_FlashWriteWritesThePage :
    (performing [.flashWrite 3 [0, 1, 2, 3, 4, 5, 6, 7]]).nextEvent = .run ∧
    (performing [.flashWrite 3 [0, 1, 2, 3, 4, 5, 6, 7]]).ctl = .exec ∧
    (performing [.flashWrite 3 [0, 1, 2, 3, 4, 5, 6, 7]]).fx = .flashWrite 3 [0, 1, 2, 3, 4, 5, 6, 7] :: [] ∧
    3 < small.flashPages ∧ [(0 : Byte), 1, 2, 3, 4, 5, 6, 7].length = small.pageSize := by decide

theorem witness_EepromWriteWritesTheBytes :
    (performing [.eepromWrite 510 [1, 2]]).nextEvent = .run ∧ (performing [.eepromWrite 510 [1, 2]]).ctl = .exec ∧
    (performing [.eepromWrite 510 [1, 2]]).fx = .eepromWrite 510 [1, 2] :: [] ∧
    510 + [(1 : Byte), 2].length ≤ small.eepromSize := by decide

theorem witness_ConfigurationAndSilentEffects :
    (∀ fx, (performing fx).nextEvent = .run ∧ (performing fx).ctl = .exec) ∧
    (performing [.cfgWrite .board 7]).fx = .cfgWrite .board 7 :: [] ∧
    (performing [.cfgWrite .bitrate 7]).fx = .cfgWrite .bitrate 7 :: [] ∧
    (performing [.rwwEnable]).fx = .rwwEnable :: [] ∧ (performing [.indicatorToggle]).fx = .indicatorToggle :: [] ∧
    (performing [.indicatorOff, .jump]).fx = .indicatorOff :: [.jump] :=
  ⟨fun _ => ⟨rfl, rfl⟩, rfl, rfl, rfl, rfl, rfl⟩

theorem witness_JumpHandsOverAndHalts :
    (performing [.jump]).nextEvent = .run ∧ (performing [.jump]).ctl = .exec ∧ (performing [.jump]).fx = .jump :: [] := by decide

theorem witness_GraceTimerExpiryLeavesTheBootloader :
    ({ State.reset with events := [.expire] }.nextEvent = .expire ∧ State.reset.sup = .waitingForFirstFrame ∧
      State.reset.timer = .armed ∧ State.reset.ctl = .poll) ∧
    ({ active with events := [.expire] }.nextEvent = .expire ∧ active.sup ≠ .waitingForFirstFrame ∧ active.timer ≠ .armed) ∧
    ({ State.reset with ctl := .exec, events := [.expire] }.nextEvent = .expire ∧
      { State.reset with ctl := .exec }.ctl ≠ .poll) := by decide

/-- Room for one more, no room, and a delivery that is no frame. -/
theorem witness_ArrivalAppendsOrIsLost :
    { active with events := [.arrive (raw [5, 1, 1, 0])] }.nextEvent = .arrive (raw [5, 1, 1, 0]) ∧
    (raw [5, 1, 1, 0]).wf = true ∧ (List.replicate 15 (raw [5, 1, 1, 0])).length < active.cfg.rxDepth ∧
    active.cfg.rxDepth ≤ (List.replicate 16 (raw [5, 1, 1, 0])).length ∧ (raw [5, 1, 1]).wf = false := by decide

theorem witness_TransmissionTakesTheHead :
    { active with txq := [⟨0x41, []⟩], events := [.transmit] }.nextEvent = .transmit ∧
    { active with txq := [⟨0x41, []⟩] }.txq = ⟨0x41, []⟩ :: [] ∧ active.txq = [] := by decide

theorem witness_PowerCycleRestoresTheResetValues :
    { active with events := [.powerCycle [1, 2]] }.nextEvent = .powerCycle [1, 2] ∧ [(1 : Byte), 2][1]? = some 2 ∧
    1 < active.cfg.pageSize := by decide

/-- A build and a launch with bytes in every memory. -/
theorem witness_ResetMeetsTheInvariant :
    small.wf ∧ (Launch.mk [(7, 1)] [(31, 1)] [(511, 1)] 0xFF 7 ⟨1, 2, 3, 4⟩).Fits small := by
  refine ⟨by decide, ⟨by decide, by simp [small]⟩, ⟨by decide, by simp [small, Config.reference]⟩,
    ⟨by decide, by simp [small, Config.reference]⟩⟩

/-- A state in the middle of a frame's effects, in ACTIVE, meets the invariant. -/
theorem performing_inv {fx : List Effect} (hn : fx ≠ []) (hj : ∀ e ∈ fx.dropLast, e ≠ .jump)
    (hl : ∀ e ∈ fx, e.Legal small) : (performing fx).Inv where
  config := (by decide : small.wf)
  offsetInPage := Nat.zero_le _
  chunkSevenBits := Nat.zero_le _
  targetInRange := Nat.zero_le _
  armedIffWaiting := (by decide : active.timer = .armed ↔ active.sup = .waitingForFirstFrame)
  expiredRuns := nofun
  waitingPolls := nofun
  pollIdle := nofun
  execBusy := fun _ => hn
  haltEnds := nofun
  runningJumps := nofun
  jumpIsLast := hj
  effectsLegal := hl
  pageBufferWithin := Memory.within_nil _
  pmWithin := Memory.within_nil _
  eeWithin := Memory.within_nil _
  framesWellFormed := nofun
  rxInDepth := Nat.zero_le _
  txInSlots := Nat.zero_le _

/-- The end of a START_APP's frame. -/
theorem starting_inv : (performing [.send 0x44 [], .jump]).Inv :=
  performing_inv (by decide) (by decide) (by simp [Effect.Legal])

theorem witness_EveryStepKeepsTheInvariant :
    ∃ s t : State, s.Inv ∧ step s = .next t := by
  obtain ⟨t, h, _⟩ := ok_next (p := fun _ => true) (o := step (performing [.send 0x44 [], .jump])) (by decide)
  exact ⟨_, t, starting_inv, h⟩

/-- The state after the Jump meets the invariant. -/
theorem halted_inv : { performing [] with sup := .runningApplication, ctl := .halt }.Inv where
  config := (by decide : small.wf)
  offsetInPage := Nat.zero_le _
  chunkSevenBits := Nat.zero_le _
  targetInRange := Nat.zero_le _
  armedIffWaiting := ⟨nofun, nofun⟩
  expiredRuns := nofun
  waitingPolls := nofun
  pollIdle := nofun
  execBusy := nofun
  haltEnds := fun _ => ⟨rfl, rfl⟩
  runningJumps := nofun
  jumpIsLast := nofun
  effectsLegal := nofun
  pageBufferWithin := Memory.within_nil _
  pmWithin := Memory.within_nil _
  eeWithin := Memory.within_nil _
  framesWellFormed := nofun
  rxInDepth := Nat.zero_le _
  txInSlots := Nat.zero_le _

/-- Both stops happen in states of the invariant: a step asked for at HALT, and a delivery that is no frame. -/
theorem witness_NothingIsFatalDuringOperation :
    (∃ s : State, ∃ e, s.Inv ∧ step s = .fault e) ∧ (∃ s : State, ∃ r, s.Inv ∧ step s = .refused r) := by
  refine ⟨⟨_, _, halted_inv, rfl⟩,
    ⟨{ performing [.send 0x44 [], .jump] with events := [.arrive (raw [5, 1, 1])] }, _, ?_, rfl⟩⟩
  have h := starting_inv
  cases h
  constructor <;> assumption

theorem witness_SupervisorMakesOnlyItsThreeTransitions :
    ∃ s t : State, s.Inv ∧ step s = .next t ∧ (∀ pb, s.nextEvent ≠ .powerCycle pb) := by
  obtain ⟨t, h, _⟩ := ok_next (p := fun _ => true) (o := step (performing [.jump])) (by decide)
  exact ⟨_, t, performing_inv (by decide) (by decide) (by simp [Effect.Legal]), h, fun _ => nofun⟩

/-- Two steps; the first byte of the protected region is at 2 × 8. -/
theorem witness_ProtectedRegionNeverChanges :
    ∃ s t : State, s.Inv ∧ core.run 2 s = .next t ∧ s.cfg.maxPages.toNat * s.cfg.pageSize ≤ 16 := by
  obtain ⟨t, h, _⟩ := ok_next (p := fun _ => true) (o := core.run 2 (performing [.flashErase 1, .rwwEnable])) (by decide)
  exact ⟨_, t, performing_inv (by decide) (by decide) (by simp [Effect.Legal, small]), h, by decide⟩

/-- Room for exactly the two replies. -/
theorem witness_PendingEffectsCompleteInOrder :
    (performing [.send 0x44 [], .send 0x44 [], .jump]).Inv ∧ (performing [.send 0x44 [], .send 0x44 [], .jump]).ctl = .exec ∧
    (performing [.send 0x44 [], .send 0x44 [], .jump]).events = [] ∧
    (performing [.send 0x44 [], .send 0x44 [], .jump]).txq.length +
      ((performing [.send 0x44 [], .send 0x44 [], .jump]).fx.filter Effect.isSend).length ≤ small.txSlots :=
  ⟨performing_inv (by decide) (by decide) (by simp [Effect.Legal]), by decide⟩

theorem witness_CommittedPageReadsBack :
    let s := performing [.flashErase 3, .flashWrite 3 [0, 1, 2, 3, 4, 5, 6, 7], .rwwEnable, .send 0x43 [0, 3]]
    s.ctl = .exec ∧ s.events = [] ∧
    s.fx = .flashErase 3 :: .flashWrite 3 [0, 1, 2, 3, 4, 5, 6, 7] :: .rwwEnable :: [.send 0x43 [0, 3]] ∧
    3 < s.cfg.flashPages ∧ [(0 : Byte), 1, 2, 3, 4, 5, 6, 7].length = s.cfg.pageSize := by decide

end Sys2Proof.Tests
end

/-! The encoding of frames (30_encoding.md section 1): `decode` and `encode` are inverse to each other. -/
section
namespace Sys2Proof.Machine

/-- The frames the decoder accepts (R100, R101): a header, a payload of at most 4 bytes, and its length beside them. -/
theorem decode_frame (a k n c : Byte) {p : List Byte} (hp : p.length ≤ 4) :
    decode ⟨a :: k :: n :: c :: p, p.length⟩ = .ok (decodeCommand k ⟨a, n, c, p⟩) := by
  simp [decode, Nat.not_lt.mpr hp]

/-- It accepts no other delivery. -/
theorem exists_frame_of_decode_ok {d : RxFrame} {i : Instr} (h : decode d = .ok i) :
    ∃ a k n c p, p.length ≤ 4 ∧ d = ⟨a :: k :: n :: c :: p, p.length⟩ ∧ i = decodeCommand k ⟨a, n, c, p⟩ := by
  have hwf := (decode_ok_wf h).1
  match d, h, hwf with
  | ⟨a :: k :: n :: c :: p, len⟩, h, hwf =>
    simp only [RxFrame.wf, List.length_cons, Bool.and_eq_true, decide_eq_true_eq] at hwf
    obtain rfl : p.length = len := by omega
    rw [decode_frame a k n c hwf.1] at h
    exact ⟨a, k, n, c, p, hwf.1, rfl, (Except.ok.inj h).symm⟩

/-- The payload of a well-formed instruction has at most 4 bytes (R100). -/
theorem payload_length_le_of_wf {i : Instr} (h : i.wf = true) : i.fields.payload.length ≤ 4 := by
  cases i
  case unrecognizedRequest c f => exact of_decide_eq_true (Bool.and_eq_true_iff.mp h).2
  all_goals exact of_decide_eq_true h

/-- The command byte selects the instruction, a request's by its code, assigned or not (R102, R103, R104, R110). -/
theorem decodeCommand_commandByte {i : Instr} (h : i.wf = true) :
    decodeCommand (commandByte i.kind i.code) i.fields = i := by
  simp only [decodeCommand, kindOf_commandByte, codeOf_commandByte]
  cases i
  case unrecognizedRequest c f => exact decodeRequest_unassigned (of_decide_eq_true (Bool.and_eq_true_iff.mp h).1) f
  all_goals rfl

/-- Settles O1: the frame of a well-formed instruction is one the decoder accepts, and its command byte selects that
instruction. -/
theorem decodeOfEncodeIsTheInstruction : Obligations.DecodeOfEncodeIsTheInstruction := by
  intro i h
  rw [encode, decode_frame _ _ _ _ (payload_length_le_of_wf h), decodeCommand_commandByte h]

/-- Settles O2: an accepted delivery is a frame, and the instruction read from it keeps its fields, kind and code. -/
theorem encodeOfDecodeIsTheFrame : Obligations.EncodeOfDecodeIsTheFrame := by
  intro d i h
  obtain ⟨a, k, n, c, p, hp, rfl, rfl⟩ := exists_frame_of_decode_ok h
  obtain ⟨hfields, hkind, hcode, hwf⟩ := decodeCommand_spec k ⟨a, n, c, p⟩
  constructor
  · simp only [encode, hfields, hkind, hcode, commandByte_kindOf_codeOf]
  · rw [hwf]
    exact decide_eq_true hp

end Sys2Proof.Machine
end

/-! The frame validator (40_frame_validator.md): what an ignored frame and a wrong number leave, and who writes `msg`. -/
section
namespace Sys2Proof.Machine

/-- At POLL with nothing pending, a visible frame that emits nothing moves the supervisor and its timer alone (R130). -/
theorem sawFrame_nil_of_poll {s : State} (hctl : s.ctl = .poll) (hfx : s.fx = []) :
    s.sawFrame [] = { s with sup := s.supSeen, timer := s.timerSeen } := by
  simp [State.sawFrame, hctl, hfx]

/-- Settles O6: the filter and the supervisor pass the frame, and the kind filter drops it. -/
theorem otherKindsAreIgnored : Obligations.OtherKindsAreIgnored := by
  intro i s hkind hctl hfx hsees
  rw [exec_ignored hkind hsees, firstFrame_settle, sawFrame_nil_of_poll hctl hfx]

/-- Settles O7: the sequencer answers before any handler runs. -/
theorem wrongNumberIsAnsweredAndNotAdvanced : Obligations.WrongNumberIsAnsweredAndNotAdvanced := by
  intro i s hkind hsees hnumber
  rw [exec_wrongNumber hkind hsees hnumber, firstFrame_reply_settle, replyCommand_wrongNumber]

/-- An accepted request advances `msg`: its handler and its reply leave the number that the sequencer wrote (R135). -/
theorem msg_of_exec_accepted {i : Instr} {s t : State} (h : exec i s = .next t) (hkind : i.kind = 0)
    (hacc : s.Accepts i.code i.fields) : t.msg = nextNumber s.msg := by
  rcases exec_next h with ⟨hunseen, _⟩ | ⟨hother, _⟩ | ⟨_, _, hwrong, _⟩ | ⟨_, _, u, r, hu, rfl⟩
  · exact absurd hacc.1 hunseen
  · exact absurd hkind hother
  · exact absurd hacc.2 hwrong
  · obtain ⟨_, hmsg, _⟩ := handler_frame hu
    simp [hmsg]

/-- A frame that is not an accepted request leaves `msg` (R131, R133, R134). -/
theorem msg_of_exec_not_accepted {i : Instr} {s t : State} (h : exec i s = .next t)
    (hnot : ¬ (i.kind = 0 ∧ s.Accepts i.code i.fields)) : t.msg = s.msg := by
  rcases exec_next h with ⟨_, rfl⟩ | ⟨_, _, rfl⟩ | ⟨_, _, _, rfl⟩ | ⟨hkind, hacc, _⟩
  · simp
  · simp
  · simp
  · exact absurd ⟨hkind, hacc⟩ hnot

@[simp] theorem State.writeCfg_msg (s : State) (slot : CfgSlot) (v : Byte) : (s.writeCfg slot v).msg = s.msg := by
  cases slot <;> rfl

/-- Performing an effect leaves `msg` (70_reset_and_hazards.md R300–R303). -/
theorem msg_of_performEffect {e : Effect} {rest : List Effect} {s t : State}
    (h : performEffect e rest s = .next t) : t.msg = s.msg := by
  rcases performEffect_next h with ⟨hwait, _⟩ | ⟨_, _, _, _, hsend⟩ | ⟨_, _, _, _, _, hflash⟩ | ⟨_, _, _, _, heeprom⟩ |
    ⟨slot, v, _, hcfg⟩ | ⟨_, hsilent⟩ | ⟨_, hjump⟩
  · rw [hwait]
  · rw [hsend, State.retire_msg]
  · rw [hflash, State.retire_msg]
  · rw [heeprom, State.retire_msg]
  · rw [hcfg, State.retire_msg, State.writeCfg_msg]
  · rw [hsilent, State.retire_msg]
  · rw [hjump]

/-- Of the moves, only a frame step and a power cycle can write `msg`. -/
theorem msg_of_step_without_frame {s t : State} (h : step s = .next t)
    (hcycle : ∀ pb, s.nextEvent ≠ .powerCycle pb)
    (hframe : ¬ (s.nextEvent = .run ∧ s.ctl = .poll ∧ s.sup ≠ .runningApplication ∧ s.rxq ≠ [])) :
    t.msg = s.msg := by
  cases step_moves h with
  | waits => simp
  | takesFrame d rest i hrun hctl hsup hrxq => exact absurd ⟨hrun, hctl, hsup, by simp [hrxq]⟩ hframe
  | performs e rest hrun hctl hfx hperf => simpa using msg_of_performEffect hperf
  | expires => simp
  | arrives => simp
  | transmits => simp
  | cycles drawn hev => exact absurd hev (hcycle drawn)

/-- Settles O8: the sequencer's advance is the only write of `msg`, and it happens before the handler runs. -/
theorem onlyAcceptanceAdvancesTheNumber : Obligations.OnlyAcceptanceAdvancesTheNumber := by
  refine ⟨fun i s t h hkind hacc => ?_, fun _ _ _ => msg_of_exec_not_accepted, fun _ _ => msg_of_step_without_frame⟩
  rw [msg_of_exec_accepted h hkind hacc, nextNumber_toNat]

end Sys2Proof.Machine
end

/-! The page-buffer controller (41_page_buffer.md): the DATA chunks that abort the group. -/
section
namespace Sys2Proof.Machine

/-- A chunk that breaks a precondition aborts, by the first of the three that fails (R162). -/
theorem handleData_of_not_collects {f : Fields} {s : State} (h : ¬ s.Collects f) :
    handleData f s = abortGroup
      (if f.payload.length ≠ 4 then .eLen else if s.cfg.chunks ≤ s.bufferOffset.toNat then .eOffset else .ePhase)
      f s := by
  unfold handleData
  by_cases hlen : f.payload.length ≠ 4
  · rw [if_pos hlen, if_pos hlen]
  by_cases hoffset : s.cfg.chunks ≤ s.bufferOffset.toNat
  · simp only [if_neg hlen, if_pos hoffset]
  have hphase : s.phase = .idle := by
    cases hp : s.phase with
    | idle => rfl
    | collectingPage => exact absurd ⟨not_not.mp hlen, Nat.lt_of_not_le hoffset, hp⟩ h
  simp only [if_neg hlen, if_neg hoffset, if_pos hphase]

/-- A chunk that meets the preconditions but is out of order aborts (R164). -/
theorem handleData_of_not_inOrder {f : Fields} {s : State} (hcollects : s.Collects f) (horder : ¬ s.InOrder f) :
    handleData f s = abortGroup .eChunk f s := by
  obtain ⟨hlen, hoffset, hphase⟩ := hcollects
  obtain ⟨hstart, hcounter⟩ := not_or.mp horder
  have hflag : ¬ startOfGroup f.chunkCounter = true := (startOfGroup_iff f).not.mpr hstart
  have hcollecting : s.phase ≠ .idle := by simp [hphase]
  rw [handleData, if_neg (not_not.mpr hlen), if_neg (Nat.not_le.mpr hoffset), if_neg hcollecting, if_neg hflag,
    if_neg hcounter]

/-- An accepted DATA frame whose handler aborts leaves `phase` Idle and the echoing ERROR reply, and writes no other
Session register but `msg` (R162, R164). -/
theorem exec_data_of_abort {f : Fields} {s : State} {w : Cause} (hacc : s.Accepts 3 f)
    (habort : handleData f s.firstFrame.advance = abortGroup w f s.firstFrame.advance) :
    exec (.data f) s = .next { s.accepted [.send 0x83 f.payload] with phase := .idle } := by
  have hexec : exec (.data f) s =
      .next (({ s with phase := .idle } : State).firstFrame.advance.answer 3 (.error w f.payload)).settle := by
    rw [exec_accepted rfl hacc]
    simp only [Instr.handler, Instr.fields, habort]
    rfl
  rw [hexec, accepted_error]
  rfl

/-- Settles O32: the supervisor and the sequencer leave the three preconditions as they are, so the handler aborts. -/
theorem dataPreconditionAbortsTheTransfer : Obligations.DataPreconditionAbortsTheTransfer := fun _ _ hacc hnot =>
  ⟨exec_data_of_abort hacc (handleData_of_not_collects hnot), handleData_of_not_collects hnot⟩

/-- Settles O34: the supervisor and the sequencer leave `chunk` as it is, so the handler finds the mismatch. -/
theorem countdownMismatchAbortsTheGroup : Obligations.CountdownMismatchAbortsTheGroup :=
  fun _ _ hacc hcollects hstart hcounter =>
    exec_data_of_abort hacc (handleData_of_not_inOrder hcollects (not_or.mpr ⟨hstart, hcounter⟩))

end Sys2Proof.Machine
end

/-! The commands (42_commands.md): the requests that are answered with one reply, the echoing ERROR or a SUCCESS, and whose
handler writes no Session register. -/
section
namespace Sys2Proof.Machine

/-- An accepted request whose handler raises an error: the echoing ERROR reply and nothing else (R139, R190). -/
theorem exec_of_raiseError {i : Instr} {s : State} {w : Cause} (hkind : i.kind = 0) (hacc : s.Accepts i.code i.fields)
    (h : Instr.handler s.cfg i i.fields s.firstFrame.advance = raiseError w i.fields s.firstFrame.advance) :
    exec i s = .next (s.accepted [errorEcho i.code i.fields]) := by
  rw [exec_accepted hkind hacc, h]
  exact congrArg _ (accepted_error s i.code w i.fields.payload)

/-- An accepted request whose handler succeeds with the state as it found it: the SUCCESS reply and nothing else (R138). -/
theorem exec_of_success {i : Instr} {s : State} {p : List Byte} (hkind : i.kind = 0) (hacc : s.Accepts i.code i.fields)
    (h : Instr.handler s.cfg i i.fields s.firstFrame.advance = .ok (s.firstFrame.advance, .success p)) :
    exec i s = .next (s.accepted [.send (answerByte 1 i.code) p]) := by
  rw [exec_accepted hkind hacc, h]
  exact congrArg _ (accepted_success s i.code p)

theorem optional_present {b : Bool} {g : Handler} {f : Fields} {s : State} (hb : b = true) :
    optional b g f s = g f s := by rw [hb, optional_true]

theorem optional_absent {b : Bool} {g : Handler} {f : Fields} {s : State} (hb : b = false) :
    optional b g f s = raiseError .eUnknown f s := by rw [hb, optional_false, handleUnrecognized]

/-- A command with a required length is a request. -/
theorem kind_of_lengthWrong {i : Instr} (h : i.lengthWrong = true) : i.kind = 0 := by
  cases i
  case ignoredKindSuccess | ignoredKindError | ignoredKindWrongNumber => exact absurd h Bool.false_ne_true
  all_goals rfl

/-- Every handler but DATA's validates the length first, and raises before it touches the state (R190). -/
theorem handler_of_lengthWrong {c : Config} {i : Instr} {s : State} (hlen : i.lengthWrong = true)
    (hpresent : i.present c = true) : Instr.handler c i i.fields s = raiseError .eLen i.fields s := by
  cases i with
  | noOperation f | identify f | setAddress f | startApp f =>
    rw [Instr.handler]
    exact withLength_wrong (of_decide_eq_true hlen)
  | readFlash f | getFusebits f | chipErase f | readEeprom f | setBoardId f | setBitrate f =>
    exact (optional_present hpresent).trans (withLength_wrong (of_decide_eq_true hlen))
  | writeEeprom f => exact (optional_present hpresent).trans (if_pos (of_decide_eq_true hlen))
  | data f => exact absurd hlen Bool.false_ne_true
  | unrecognizedRequest c f | ignoredKindSuccess c f | ignoredKindError c f | ignoredKindWrongNumber c f =>
    exact absurd hlen Bool.false_ne_true

/-- Settles O15: the length check comes before everything else a handler does, so the raise is all that happens. -/
theorem wrongLengthIsAnErrorAndNothingElse : Obligations.WrongLengthIsAnErrorAndNothingElse :=
  fun _ _ hlen hpresent hacc =>
    exec_of_raiseError (kind_of_lengthWrong hlen) hacc (handler_of_lengthWrong hlen hpresent)

/-- What IDENTIFY reports, as numbers: the two nibbles, the class, the page count big-endian (R109, R191). -/
theorem capability_eq (c : Config) :
    capability c = [BitVec.ofNat 8 (c.deviceType.toNat * 16 + c.protocolVersion.toNat),
      BitVec.ofNat 8 c.pageSizeClass.toNat,
      BitVec.ofNat 8 (c.maxPages.toNat / 256), BitVec.ofNat 8 (c.maxPages.toNat % 256)] := by
  have hnibbles : c.deviceType ++ c.protocolVersion =
      BitVec.ofNat 8 (c.deviceType.toNat * 16 + c.protocolVersion.toNat) := by
    generalize c.deviceType = d, c.protocolVersion = v
    revert d v; decide
  rw [capability, hnibbles, ← hi_toNat, ← lo_toNat]
  simp only [BitVec.zeroExtend, BitVec.ofNat_toNat, BitVec.setWidth_eq]

/-- Settles O19: with no payload the handler's report is a function of the configuration, which no register write of the
course touches; with one, the length check raises. -/
theorem identifyReportsTheConfiguration : Obligations.IdentifyReportsTheConfiguration := by
  refine fun f s hacc => ⟨fun hempty => ?_, fun hpayload => ?_⟩
  · rw [← capability_eq]
    refine exec_of_success (i := .identify f) rfl hacc ?_
    rw [Instr.handler]
    exact withLength_right (List.length_eq_zero_iff.mpr hempty)
  · exact wrongLengthIsAnErrorAndNothingElse (.identify f) s (by simpa [Instr.lengthWrong] using hpayload) rfl hacc

/-- SET_ADDRESS with a page of at least MAX_PAGES or an offset of at least CHUNKS raises (R192). -/
theorem handleSetAddress_of_outOfRange {f : Fields} {s : State} {p0 p1 o0 o1 : Byte} (hp : f.payload = [p0, p1, o0, o1])
    (hrange : s.cfg.maxPages.toNat ≤ p0.toNat * 256 + p1.toNat ∨ s.cfg.pageSize / 4 ≤ o0.toNat * 256 + o1.toNat) :
    handleSetAddress f s = raiseError .eRange f s := by
  have hpage : (pageOf f.payload).toNat = p0.toNat * 256 + p1.toNat := by rw [hp]; exact be16_toNat p0 p1
  have hoffset : (offsetOf f.payload).toNat = o0.toNat * 256 + o1.toNat := by rw [hp]; exact be16_toNat o0 o1
  rw [handleSetAddress, withLength_right (by rw [hp]; rfl), if_pos]
  rwa [BitVec.le_def, hpage, hoffset, Config.chunks]

/-- Settles O20: either check raises before a register is written, and the supervisor and the sequencer leave `phase` and
the rest of the Session as they are. -/
theorem setAddressOutOfRangeIsRejected : Obligations.SetAddressOutOfRangeIsRejected :=
  fun f s hacc =>
    ⟨fun hlen => wrongLengthIsAnErrorAndNothingElse (.setAddress f) s (decide_eq_true hlen) rfl hacc,
      fun _ _ _ _ hp hrange =>
        exec_of_raiseError (i := .setAddress f) rfl hacc (handleSetAddress_of_outOfRange hp hrange)⟩

/-- Settles O25: present and with no payload the handler reads the four bytes; absent, the request is unrecognised; present
with a payload, the length check raises. -/
theorem getFusebitsRepliesTheFuseBytes : Obligations.GetFusebitsRepliesTheFuseBytes := by
  refine fun f s hacc => ⟨fun hpresent hempty => ?_, fun herror => ?_⟩
  · exact exec_of_success (i := .getFusebits f) rfl hacc
      ((optional_present hpresent).trans (withLength_right (List.length_eq_zero_iff.mpr hempty)))
  · by_cases hpresent : s.cfg.optGetFusebits = true
    · have hpayload : f.payload ≠ [] := herror.resolve_left (by simp [hpresent])
      exact wrongLengthIsAnErrorAndNothingElse (.getFusebits f) s (by simpa [Instr.lengthWrong] using hpayload)
        hpresent hacc
    · exact exec_of_raiseError (i := .getFusebits f) rfl hacc (optional_absent (Bool.eq_false_iff.mpr hpresent))

end Sys2Proof.Machine
end

/-! The invariant of every run (10_state.md section 3): every move of every agent keeps it. The frame step is the long
case: a handler may leave the Session registers changed within their ranges, and what it emits is legal with Jump last. -/
section
namespace Sys2Proof.Machine

/-! ### What a frame leaves pending -/

/-- The effects of one frame or of the expiry: each legal, and Jump nowhere but at the end (R200, R243). -/
def LegalEffects (c : Config) (es : List Effect) : Prop :=
  (∀ e ∈ es, e.Legal c) ∧ ∀ e ∈ es.dropLast, e ≠ .jump

/-- Legal effects without a Jump, then one more legal effect. -/
theorem legalEffects_concat {c : Config} {es : List Effect} {e : Effect} (hes : ∀ x ∈ es, x.Legal c)
    (hjump : Effect.jump ∉ es) (he : e.Legal c) : LegalEffects c (es ++ [e]) := by
  refine ⟨fun x hx => ?_, fun x hx => ?_⟩
  · rcases List.mem_append.mp hx with hx | hx
    · exact hes x hx
    · rwa [List.mem_singleton.mp hx]
  · rw [List.dropLast_concat] at hx
    exact fun hxj => hjump (hxj ▸ hx)

theorem legalEffects_nil (c : Config) : LegalEffects c [] := ⟨nofun, nofun⟩

theorem legalEffects_singleton {c : Config} {e : Effect} (he : e.Legal c) : LegalEffects c [e] :=
  legalEffects_concat (es := []) nofun nofun he

/-- A reply of any of the three kinds is legal, with at most 4 payload bytes (R103, R108). -/
theorem legal_reply {c : Config} {kind : Byte} {p : List Byte} (code : Code)
    (hkind : kind = kindSuccess ∨ kind = kindError ∨ kind = kindWrongNumber) (hp : p.length ≤ 4) :
    (Effect.send (replyCommand kind code) p).Legal c := by
  have hreply : 64 ≤ (replyCommand kind code).toNat := by
    rcases hkind with rfl | rfl | rfl <;> revert code <;> decide
  exact ⟨hreply, hp⟩

/-- A handler ended in `u` with the result `r`, and once it is answered all that happened to `s` is that legal effects
were emitted. -/
def AnswersLegally (code : Code) (s u : State) (r : Result) : Prop :=
  ∃ es, u.answer code r = s.emit es ∧ LegalEffects s.cfg es

theorem answersLegally_error (code : Code) (s : State) (w : Cause) {p : List Byte} (hp : p.length ≤ 4) :
    AnswersLegally code s s (.error w p) :=
  ⟨_, rfl, legalEffects_singleton (legal_reply code (.inr (.inl rfl)) hp)⟩

theorem answersLegally_emit_success (code : Code) {s : State} {es : List Effect} {p : List Byte}
    (hes : ∀ e ∈ es, e.Legal s.cfg) (hjump : Effect.jump ∉ es) (hp : p.length ≤ 4) :
    AnswersLegally code s (s.emit es) (.success p) :=
  ⟨es ++ [.send (replyCommand kindSuccess code) p], by simp [State.answer, State.reply, State.emit],
    legalEffects_concat hes hjump (legal_reply code (.inl rfl) hp)⟩

theorem answersLegally_success (code : Code) (s : State) {p : List Byte} (hp : p.length ≤ 4) :
    AnswersLegally code s s (.success p) :=
  ⟨_, rfl, legalEffects_singleton (legal_reply code (.inl rfl) hp)⟩

theorem answersLegally_emit_silent (code : Code) {s : State} {es : List Effect} (hes : LegalEffects s.cfg es) :
    AnswersLegally code s (s.emit es) .silent := ⟨es, rfl, hes⟩

theorem answersLegally_silent (code : Code) (s : State) : AnswersLegally code s s .silent :=
  ⟨[], by simp [State.emit], legalEffects_nil _⟩

theorem raiseError_answersLegally {w : Cause} {f : Fields} {s u : State} {r : Result} (code : Code)
    (hp : f.payload.length ≤ 4) (h : raiseError w f s = .ok (u, r)) : AnswersLegally code s u r := by
  obtain ⟨rfl, rfl⟩ := raiseError_ok.mp h
  exact answersLegally_error code u w hp

theorem withLength_answersLegally {n : Nat} {g : Handler} {f : Fields} {s u : State} {r : Result} (code : Code)
    (hp : f.payload.length ≤ 4) (hg : g f s = .ok (u, r) → AnswersLegally code s u r)
    (h : withLength n g f s = .ok (u, r)) : AnswersLegally code s u r := by
  by_cases hn : f.payload.length = n
  · rw [withLength_right hn] at h
    exact hg h
  · rw [withLength_wrong hn] at h
    exact raiseError_answersLegally code hp h

theorem optional_answersLegally {b : Bool} {g : Handler} {f : Fields} {s u : State} {r : Result} (code : Code)
    (hp : f.payload.length ≤ 4) (hg : g f s = .ok (u, r) → AnswersLegally code s u r)
    (h : optional b g f s = .ok (u, r)) : AnswersLegally code s u r := by
  cases b with
  | false => exact raiseError_answersLegally code hp h
  | true => exact hg h

theorem State.length_readPm {s : State} {a n : Nat} {bs : List Byte} (h : s.readPm a n = .ok bs) : bs.length = n := by
  unfold State.readPm at h
  split at h
  · cases h; exact Memory.length_readBytes _ _ _
  · cases h

theorem State.length_readEe {s : State} {a n : Nat} {bs : List Byte} (h : s.readEe a n = .ok bs) : bs.length = n := by
  unfold State.readEe at h
  split at h
  · cases h; exact Memory.length_readBytes _ _ _
  · cases h

theorem eraseAll_legal (c : Config) : ∀ e ∈ eraseAll c, e.Legal c := by
  intro e he
  simp only [eraseAll, List.mem_append, List.mem_map, List.mem_range, List.mem_singleton] at he
  rcases he with ⟨p, hp, rfl⟩ | rfl
  · exact hp
  · trivial

theorem jump_notMem_eraseAll (c : Config) : Effect.jump ∉ eraseAll c := by simp [eraseAll]

/-- Every handler but those of DATA and SET_ADDRESS leaves the registers, and what it emits is legal (R190–R230). -/
theorem handler_answersLegally {c : Config} {i : Instr} {f : Fields} {s u : State} {r : Result} (code : Code)
    (hd : ∀ g, i ≠ .data g) (hs : ∀ g, i ≠ .setAddress g) (hp : f.payload.length ≤ 4)
    (h : Instr.handler c i f s = .ok (u, r)) : AnswersLegally code s u r := by
  cases i with
  | data g => exact absurd rfl (hd g)
  | setAddress g => exact absurd rfl (hs g)
  | noOperation g =>
    rw [Instr.handler, handleNoOperation] at h
    refine withLength_answersLegally code hp (fun h => ?_) h
    cases h
    exact answersLegally_emit_silent code (legalEffects_singleton trivial)
  | identify g =>
    rw [Instr.handler, handleIdentify] at h
    refine withLength_answersLegally code hp (fun h => ?_) h
    cases h
    exact answersLegally_success code s (by simp [capability])
  | startApp g =>
    rw [Instr.handler, handleStartApp] at h
    refine withLength_answersLegally code hp (fun h => ?_) h
    cases h
    have hreply : (Effect.send (replyCommand kindSuccess 4) []).Legal s.cfg := legal_reply 4 (.inl rfl) (Nat.zero_le 4)
    exact ⟨[.send (replyCommand kindSuccess 4) [], .jump], by simp [State.reply, State.emit],
      legalEffects_concat (List.forall_mem_singleton.mpr hreply) (by simp) trivial⟩
  | readFlash g =>
    refine optional_answersLegally code hp (withLength_answersLegally code hp fun h => ?_) h
    split at h
    · exact raiseError_answersLegally code hp h
    · split at h
      · next hread => cases h; exact answersLegally_success code s (State.length_readPm hread).le
      · cases h
  | getFusebits g =>
    refine optional_answersLegally code hp (withLength_answersLegally code hp fun h => ?_) h
    cases h
    exact answersLegally_success code s (by simp [State.readFuse])
  | chipErase g =>
    refine optional_answersLegally code hp (withLength_answersLegally code hp fun h => ?_) h
    cases h
    exact answersLegally_emit_success code (eraseAll_legal s.cfg) (jump_notMem_eraseAll s.cfg) (Nat.zero_le 4)
  | readEeprom g =>
    refine optional_answersLegally code hp (withLength_answersLegally code hp fun h => ?_) h
    split at h
    · exact raiseError_answersLegally code hp h
    · next hrange =>
      split at h
      · next hread =>
        cases h
        exact answersLegally_success code s (by rw [State.length_readEe hread]; omega)
      · cases h
  | writeEeprom g =>
    refine optional_answersLegally code hp (fun h => ?_) h
    unfold handleWriteEeprom at h
    split at h
    · exact raiseError_answersLegally code hp h
    · split at h
      · exact raiseError_answersLegally code hp h
      · next hrange =>
        cases h
        exact answersLegally_emit_success code (by simpa [Effect.Legal] using hrange) (by simp) (Nat.zero_le 4)
  | setBoardId g =>
    refine optional_answersLegally code hp (withLength_answersLegally code hp fun h => ?_) h
    split at h
    · exact raiseError_answersLegally code hp h
    · next hboard =>
      cases h
      exact answersLegally_emit_success code (by simpa [Effect.Legal] using hboard) (by simp) (Nat.zero_le 4)
  | setBitrate g =>
    refine optional_answersLegally code hp (withLength_answersLegally code hp fun h => ?_) h
    split at h
    · exact raiseError_answersLegally code hp h
    · next hrate =>
      cases h
      exact answersLegally_emit_success code (by simpa [Effect.Legal] using hrate) (by simp) (Nat.zero_le 4)
  | unrecognizedRequest _ _ | ignoredKindSuccess _ _ | ignoredKindError _ _ | ignoredKindWrongNumber _ _ =>
    exact raiseError_answersLegally code hp h

/-! ### The Session registers -/

theorem toNat_next {v : Half} (h : v.toNat < 65535) : (v + 1).toNat = v.toNat + 1 :=
  BitVec.toNat_add_of_lt (Nat.succ_lt_succ h)

/-- The page ends no earlier than the slot does (20_memory.md R71). -/
theorem slot_within_page {c : Config} {offset : Nat} (h : offset < c.chunks) : 4 * offset + 4 ≤ c.pageSize := by
  rw [Config.chunks] at h
  omega

/-- Storing a chunk with a 7-bit countdown in a free slot keeps the registers in range (R165). -/
theorem storeChunk_inv {s : State} (h : s.Inv) {p : List Byte} {c : Byte} (hp : p.length = 4)
    (hslot : s.bufferOffset.toNat < s.cfg.chunks) (hc : c.toNat ≤ 127) :
    (storeChunk p { s with chunk := c }).Inv := by
  obtain ⟨_, _, hchunks, _⟩ := h.config
  have hnext : (s.bufferOffset + 1).toNat = s.bufferOffset.toNat + 1 := toNat_next (hslot.trans_le hchunks)
  exact { h with
    offsetInPage := hnext.trans_le hslot
    chunkSevenBits := by
      rw [storeChunk_chunk, satDec_toNat]
      exact (Nat.sub_le _ 1).trans hc
    pageBufferWithin := Memory.within_write h.pageBufferWithin (by rw [hp]; exact slot_within_page hslot) }

/-- Starting the next page after a commit keeps the registers in range (R167, R45). -/
theorem nextPage_inv {s : State} (h : s.Inv) (hpage : s.targetPage < s.cfg.maxPages) :
    { s with bufferOffset := 0, targetPage := s.targetPage + 1 }.Inv := by
  have hlt : s.targetPage.toNat < s.cfg.maxPages.toNat := BitVec.lt_def.mp hpage
  have hnext : (s.targetPage + 1).toNat = s.targetPage.toNat + 1 :=
    toNat_next (hlt.trans_le (Nat.le_of_lt_succ s.cfg.maxPages.isLt))
  exact { h with offsetInPage := Nat.zero_le _, targetInRange := hnext.trans_le hlt }

/-- The machine serves a visible frame: the supervisor has seen it, and nothing is pending yet (R130, R242). -/
structure State.Serves (s : State) : Prop where
  inv : s.Inv
  polls : s.ctl = .poll
  active : s.sup = .active

/-- How a handler ends: but for legal effects, in a state that still serves the frame. -/
def EndsLegally (code : Code) (u : State) (r : Result) : Prop := ∃ w : State, w.Serves ∧ AnswersLegally code w u r

theorem handleSetAddress_endsLegally {f : Fields} {s u : State} {r : Result} (code : Code) (h : s.Serves)
    (hp : f.payload.length ≤ 4) (hu : handleSetAddress f s = .ok (u, r)) : EndsLegally code u r := by
  rcases handleSetAddress_ok hu with ⟨rfl, w, rfl⟩ | ⟨_, hpage, hoffset, rfl, rfl⟩
  · exact ⟨u, h, answersLegally_error code u w hp⟩
  · have hlt : (pageOf f.payload).toNat < s.cfg.maxPages.toNat := BitVec.lt_def.mp hpage
    have hset : ({ s with
        targetPage := pageOf f.payload, bufferOffset := offsetOf f.payload, phase := .collectingPage } : State).Serves :=
      ⟨{ h.inv with offsetInPage := hoffset.le, targetInRange := hlt.le }, h.polls, h.active⟩
    exact ⟨_, hset, answersLegally_success code _ hp⟩

theorem completeGroup_endsLegally {s u : State} {r : Result} (code : Code) (h : s.Serves)
    (hu : completeGroup s = .ok (u, r)) : EndsLegally code u r := by
  rcases completeGroup_ok hu with ⟨_, rfl, rfl⟩ | ⟨hpage, rfl, rfl⟩ | ⟨rfl, rfl⟩
  · exact ⟨u, h, answersLegally_error code u .eProtect (Nat.le_of_ble_eq_true rfl)⟩
  · have hlt : s.targetPage.toNat < s.cfg.maxPages.toNat := BitVec.lt_def.mp hpage
    exact ⟨_, ⟨nextPage_inv h.inv hpage, h.polls, h.active⟩,
      answersLegally_emit_success code (by simp [Effect.Legal, hlt]) (by simp) (Nat.le_of_ble_eq_true rfl)⟩
  · exact ⟨u, h, answersLegally_success code u (Nat.zero_le 4)⟩

theorem handleData_endsLegally {f : Fields} {s u : State} {r : Result} (code : Code) (h : s.Serves)
    (hp : f.payload.length ≤ 4) (hu : handleData f s = .ok (u, r)) : EndsLegally code u r := by
  rcases handleData_ok hu with ⟨rfl, w, rfl⟩ | ⟨hlen, hslot, _, _, c, hc, hstored⟩
  · have haborted : ({ s with phase := .idle } : State).Serves := ⟨{ h.inv with }, h.polls, h.active⟩
    exact ⟨_, haborted, answersLegally_error code _ w hp⟩
  · have hserves : (storeChunk f.payload { s with chunk := c }).Serves :=
      ⟨storeChunk_inv h.inv hlen hslot hc, h.polls, h.active⟩
    rcases hstored with ⟨_, rfl, rfl⟩ | ⟨_, hgroup⟩
    · exact ⟨_, hserves, answersLegally_silent code _⟩
    · exact completeGroup_endsLegally code hserves hgroup

/-- Every handler ends legally. -/
theorem handler_endsLegally {c : Config} {i : Instr} {f : Fields} {s u : State} {r : Result} (code : Code)
    (h : s.Serves) (hp : f.payload.length ≤ 4) (hu : Instr.handler c i f s = .ok (u, r)) : EndsLegally code u r := by
  by_cases hd : ∃ g, i = .data g
  · obtain ⟨g, rfl⟩ := hd
    exact handleData_endsLegally code h hp hu
  by_cases hs : ∃ g, i = .setAddress g
  · obtain ⟨g, rfl⟩ := hs
    exact handleSetAddress_endsLegally code h hp hu
  · exact ⟨s, h, handler_answersLegally code (fun g e => hd ⟨g, e⟩) (fun g e => hs ⟨g, e⟩) hp hu⟩

/-! ### The frame step -/

theorem firstFrame_of_waiting {s : State} (h : s.sup = .waitingForFirstFrame) :
    s.firstFrame = { s with timer := .stopped, sup := .active } := by
  rw [State.firstFrame, if_pos h, if_pos h]

theorem firstFrame_of_not_waiting {s : State} (h : s.sup ≠ .waitingForFirstFrame) : s.firstFrame = s := by
  rw [State.firstFrame, if_neg h, if_neg h]

/-- Once the supervisor has seen a frame at POLL, the machine serves it (R242, R248). -/
theorem firstFrame_serves {s : State} (h : s.Inv) (hctl : s.ctl = .poll) : s.firstFrame.Serves := by
  obtain ⟨hfx, hsup⟩ := h.pollIdle hctl
  cases hs : s.sup with
  | waitingForFirstFrame =>
    rw [firstFrame_of_waiting hs]
    exact ⟨{ h with
      armedIffWaiting := ⟨nofun, nofun⟩
      expiredRuns := nofun
      waitingPolls := nofun
      pollIdle := fun _ => ⟨hfx, nofun⟩
      haltEnds := fun hhalt => nomatch hctl.symm.trans hhalt
      runningJumps := fun _ => nofun }, hctl, rfl⟩
  | active =>
    rw [firstFrame_of_not_waiting (by rw [hs]; nofun)]
    exact ⟨h, hctl, hs⟩
  | runningApplication => exact absurd hs hsup

/-- The end of a frame step: the emitted effects are what is pending, and the control state says so (R130, R42). -/
theorem emit_settle_inv {s : State} (h : s.Serves) {es : List Effect} (hes : LegalEffects s.cfg es) :
    (s.emit es).settle.Inv := by
  obtain ⟨hinv, hctl, hsup⟩ := h
  obtain ⟨hfx, _⟩ := hinv.pollIdle hctl
  obtain ⟨hlegal, hjump⟩ := hes
  exact { hinv with
    waitingPolls := by simp [hsup]
    pollIdle := by simp [hfx, hsup]
    execBusy := by simp [hfx]
    haltEnds := by simp [hfx, ite_eq_iff]
    runningJumps := by simp [hsup]
    jumpIsLast := by simpa [hfx] using hjump
    effectsLegal := by simpa [hfx] using hlegal }

theorem State.emit_nil (s : State) : s.emit [] = s := by rw [State.emit, List.append_nil]

/-- At POLL with nothing pending there is nothing to settle. -/
theorem settle_of_idle {s : State} (hctl : s.ctl = .poll) (hfx : s.fx = []) : s.settle = s := by
  rw [State.settle, hfx, List.isEmpty_nil, if_pos rfl, ← hctl, ← hfx]

/-- A frame step keeps the invariant. -/
theorem exec_inv {i : Instr} {s t : State} (h : s.Inv) (hctl : s.ctl = .poll)
    (hp : i.fields.payload.length ≤ 4) (hexec : exec i s = .next t) : t.Inv := by
  have hserves := firstFrame_serves h hctl
  rcases exec_next hexec with ⟨_, rfl⟩ | ⟨_, _, rfl⟩ | ⟨_, _, _, rfl⟩ | ⟨_, _, u, r, hu, rfl⟩
  · rwa [settle_of_idle hctl (h.pollIdle hctl).1]
  · rw [← State.emit_nil s.firstFrame]
    exact emit_settle_inv hserves (legalEffects_nil _)
  · exact emit_settle_inv hserves
      (legalEffects_singleton (legal_reply i.code (.inr (.inr rfl)) (Nat.zero_le 4)))
  · have hadvanced : s.firstFrame.advance.Serves := ⟨{ hserves.inv with }, hserves.polls, hserves.active⟩
    obtain ⟨w, hw, es, hanswer, hes⟩ := handler_endsLegally i.code hadvanced hp hu
    rw [hanswer]
    exact emit_settle_inv hw hes

/-! ### The effect step -/

@[simp] theorem State.writeCfg_ctl (s : State) (slot : CfgSlot) (v : Byte) : (s.writeCfg slot v).ctl = s.ctl := by
  cases slot <;> rfl

@[simp] theorem State.writeCfg_fx (s : State) (slot : CfgSlot) (v : Byte) : (s.writeCfg slot v).fx = s.fx := by
  cases slot <;> rfl

@[simp] theorem State.writeCfg_sup (s : State) (slot : CfgSlot) (v : Byte) : (s.writeCfg slot v).sup = s.sup := by
  cases slot <;> rfl

/-- Retiring a performed effect other than Jump (R300). -/
theorem retire_inv {s : State} {e : Effect} {rest : List Effect} (h : s.Inv) (hctl : s.ctl = .exec)
    (hfx : s.fx = e :: rest) (he : e ≠ .jump) : (s.retire rest).Inv := by
  have hwaiting : s.sup ≠ .waitingForFirstFrame := fun hs => nomatch (h.waitingPolls hs).symm.trans hctl
  have hlegal := h.effectsLegal
  have hjump := h.jumpIsLast
  have hruns := h.runningJumps hctl
  rw [hfx] at hlegal hjump hruns
  cases rest with
  | nil =>
    have hsup : s.sup ≠ .runningApplication := fun hs => he (by simpa using hruns hs)
    exact { h with
      waitingPolls := fun hs => absurd hs hwaiting
      pollIdle := fun _ => ⟨rfl, hsup⟩
      execBusy := nofun
      haltEnds := nofun
      runningJumps := nofun
      jumpIsLast := nofun
      effectsLegal := nofun }
  | cons e' rest =>
    exact { h with
      waitingPolls := fun hs => absurd hs hwaiting
      pollIdle := nofun
      execBusy := nofun
      haltEnds := nofun
      runningJumps := fun _ hs => by simpa using hruns hs
      jumpIsLast := fun x hx => hjump x (List.mem_cons_of_mem _ hx)
      effectsLegal := fun x hx => hlegal x (List.mem_cons_of_mem _ hx) }

/-- Performing Jump: it is the last effect, and the machine halts (R303). -/
theorem jump_inv {s : State} {rest : List Effect} (h : s.Inv) (hctl : s.ctl = .exec) (hfx : s.fx = .jump :: rest) :
    { s with sup := .runningApplication, ctl := .halt, fx := rest }.Inv := by
  have hlast := h.jumpIsLast
  have hwaiting : s.sup ≠ .waitingForFirstFrame := fun hs => nomatch (h.waitingPolls hs).symm.trans hctl
  obtain rfl : rest = [] := by
    cases rest with
    | nil => rfl
    | cons e rest => exact absurd rfl (hlast .jump (by simp [hfx]))
  exact { h with
    armedIffWaiting := ⟨fun ha => absurd (h.armedIffWaiting.mp ha) hwaiting, nofun⟩
    expiredRuns := fun _ => rfl
    waitingPolls := nofun
    pollIdle := nofun
    execBusy := nofun
    haltEnds := fun _ => ⟨rfl, rfl⟩
    runningJumps := nofun
    jumpIsLast := nofun
    effectsLegal := nofun }

/-- An effect step keeps the invariant: the effect writes inside its space, and is retired. -/
theorem performEffect_inv {e : Effect} {rest : List Effect} {s t : State} (h : s.Inv) (hctl : s.ctl = .exec)
    (hfx : s.fx = e :: rest) (hperform : performEffect e rest s = .next t) : t.Inv := by
  rcases performEffect_next hperform with ⟨rfl, _⟩ | ⟨c, p, rfl, hroom, rfl⟩ | ⟨p, bytes, he, hpage, hlen, rfl⟩ |
    ⟨a, bytes, rfl, hrange, rfl⟩ | ⟨slot, v, rfl, rfl⟩ | ⟨he, rfl⟩ | ⟨rfl, rfl⟩
  · exact h
  · have hsent : ({ s with txq := s.txq ++ [⟨c, p⟩] } : State).Inv :=
      { h with txInSlots := by simpa using hroom }
    exact retire_inv hsent hctl hfx nofun
  · have hend : p * s.cfg.pageSize + bytes.length ≤ s.cfg.flashPages * s.cfg.pageSize :=
      calc p * s.cfg.pageSize + bytes.length ≤ (p + 1) * s.cfg.pageSize := by rw [Nat.succ_mul]; omega
        _ ≤ s.cfg.flashPages * s.cfg.pageSize := Nat.mul_le_mul_right _ hpage
    have hwritten : { s with pm := s.pm.write (p * s.cfg.pageSize) bytes }.Inv :=
      { h with pmWithin := Memory.within_write h.pmWithin hend }
    exact retire_inv hwritten hctl hfx (by rcases he with rfl | ⟨rfl, _⟩ <;> nofun)
  · have hwritten : { s with ee := s.ee.write a bytes }.Inv :=
      { h with eeWithin := Memory.within_write h.eeWithin hrange }
    exact retire_inv hwritten hctl hfx nofun
  · have hwritten : (s.writeCfg slot v).Inv := by cases slot <;> exact { h with }
    exact retire_inv hwritten ((s.writeCfg_ctl slot v).trans hctl) ((s.writeCfg_fx slot v).trans hfx) nofun
  · exact retire_inv h hctl hfx (by rcases he with rfl | rfl | rfl <;> nofun)
  · exact jump_inv h hctl hfx

/-! ### The environment's moves -/

/-- The expiry at POLL (R243). -/
theorem expired_inv {s : State} (h : s.Inv) (hctl : s.ctl = .poll) :
    ({ s with
      timer := .expired, sup := .runningApplication, fx := s.fx ++ [.indicatorOff, .jump],
      ctl := .exec } : State).Inv := by
  obtain ⟨hfx, _⟩ := h.pollIdle hctl
  exact { h with
    armedIffWaiting := ⟨nofun, nofun⟩
    expiredRuns := fun _ => rfl
    waitingPolls := nofun
    pollIdle := nofun
    execBusy := fun _ => by simp
    haltEnds := nofun
    runningJumps := fun _ _ => by simp
    jumpIsLast := by simp [hfx]
    effectsLegal := by simp [hfx, Effect.Legal] }

/-- Reset meets the invariant, for every build the spec admits and any launch inputs that fit it (R290). -/
theorem resetWith_inv {c : Config} {l : Launch} (hc : c.wf) (hl : l.Fits c) : (State.resetWith c l).Inv where
  config := hc
  offsetInPage := Nat.zero_le _
  chunkSevenBits := Nat.zero_le _
  targetInRange := Nat.zero_le _
  armedIffWaiting := ⟨fun _ => rfl, fun _ => rfl⟩
  expiredRuns := nofun
  waitingPolls := fun _ => rfl
  pollIdle := fun _ => ⟨rfl, nofun⟩
  execBusy := nofun
  haltEnds := nofun
  runningJumps := nofun
  jumpIsLast := nofun
  effectsLegal := nofun
  pageBufferWithin := hl.1
  pmWithin := hl.2.1
  eeWithin := hl.2.2
  framesWellFormed := nofun
  rxInDepth := Nat.zero_le _
  txInSlots := Nat.zero_le _

/-- A power cycle is a reset of the same build with the memories as they are and a drawn page buffer (R290). -/
theorem powerCycle_inv {s : State} (h : s.Inv) (drawn : List Byte) : (powerCycle drawn s).Inv := by
  have hbuffer : (Memory.write [] 0 (drawn.take s.cfg.pageSize)).Within s.cfg.pageSize :=
    Memory.within_write (Memory.within_nil _) (by simp)
  have hreset := resetWith_inv (l := ⟨_, s.pm, s.ee, s.slotBoard, s.slotBitrate, s.fuse⟩) h.config
    ⟨hbuffer, h.pmWithin, h.eeWithin⟩
  exact { hreset with }

/-- Settles O54, by the moves: a frame step ends in legal effects and in-range registers, an effect step retires the head
of a legal list, and the environment's moves touch the queues, the timer or everything at once. -/
theorem everyStepKeepsTheInvariant : Obligations.EveryStepKeepsTheInvariant := by
  intro s t h hstep
  have hdrop : s.dropEvent.Inv := { h with }
  cases step_moves hstep with
  | waits => exact hdrop
  | takesFrame d rest i hrun hctl hsup hrxq hdecode hexec =>
    have hpopped : { s.dropEvent with rxq := rest }.Inv := { hdrop with
      framesWellFormed := fun x hx => h.framesWellFormed x (by simp [hrxq, hx])
      rxInDepth := by
        have := h.rxInDepth
        rw [hrxq] at this
        exact (Nat.le_succ _).trans this }
    exact exec_inv hpopped hctl (decode_ok_wf hdecode).2 hexec
  | performs e rest hrun hctl hfx hperform => exact performEffect_inv hdrop hctl hfx hperform
  | expires hev hsup htimer hctl => exact expired_inv hdrop hctl
  | arrives d hev hwf hroom => exact { hdrop with
      framesWellFormed := fun x hx => (List.mem_append.mp hx).elim (h.framesWellFormed x) fun hx => by
        rwa [List.mem_singleton.mp hx]
      rxInDepth := by simpa using hroom }
  | transmits hev => exact { hdrop with
      txInSlots := by
        rw [List.length_drop]
        exact (Nat.sub_le _ 1).trans h.txInSlots }
  | cycles drawn hev => exact powerCycle_inv hdrop drawn

end Sys2Proof.Machine
end

/-! The boot supervisor (43_boot_supervisor.md): which moves change `sup` and `timer`, and to what. -/
section
namespace Sys2Proof.Machine

/-- What a frame step does to the supervisor and its timer: the address filter alone decides (R131, R132). -/
theorem supervisor_of_exec {i : Instr} {s t : State} (h : exec i s = .next t) :
    (s.Sees i.code i.fields.address ∧ t.sup = s.firstFrame.sup ∧ t.timer = s.firstFrame.timer) ∨
    (¬ s.Sees i.code i.fields.address ∧ t.sup = s.sup ∧ t.timer = s.timer) := by
  rcases exec_next h with ⟨hunseen, rfl⟩ | ⟨_, hsees, rfl⟩ | ⟨_, hsees, _, rfl⟩ | ⟨_, ⟨hsees, _⟩, u, r, hu, rfl⟩
  · exact .inr ⟨hunseen, rfl, rfl⟩
  · exact .inl ⟨hsees, rfl, rfl⟩
  · exact .inl ⟨hsees, rfl, rfl⟩
  · obtain ⟨_, _, _, hsup, htimer, _⟩ := handler_frame hu
    exact .inl ⟨hsees, by simp [hsup], by simp [htimer]⟩

/-- Settles O9: of the course of a frame, only the supervisor's own operation writes `sup` and `timer`, and the address
filter alone decides whether it runs. -/
theorem firstVisibleFrameStopsTheTimer : Obligations.FirstVisibleFrameStopsTheTimer := by
  intro i s t hexec
  rcases supervisor_of_exec hexec with ⟨hsees, hsup, htimer⟩ | ⟨hunseen, hsup, htimer⟩
  · refine ⟨fun hwaiting _ => ?_, fun hactive => ?_, fun hunseen => absurd hsees hunseen⟩
    · rw [hsup, htimer, firstFrame_of_waiting hwaiting]
      exact ⟨rfl, rfl⟩
    · rw [hsup, htimer, firstFrame_of_not_waiting (by rw [hactive]; nofun)]
      exact ⟨rfl, rfl⟩
  · exact ⟨fun _ hsees => absurd hsees hunseen, fun _ => ⟨hsup, htimer⟩, fun _ => ⟨hsup, htimer⟩⟩

/-- Of the effects, only Jump moves the supervisor (R245). -/
theorem sup_of_performEffect {e : Effect} {rest : List Effect} {s t : State}
    (h : performEffect e rest s = .next t) : t.sup = s.sup ∨ (e = .jump ∧ t.sup = .runningApplication) := by
  rcases performEffect_next h with ⟨rfl, _⟩ | ⟨_, _, _, _, rfl⟩ | ⟨_, _, _, _, _, rfl⟩ | ⟨_, _, _, _, rfl⟩ |
    ⟨slot, v, _, rfl⟩ | ⟨_, rfl⟩ | ⟨rfl, rfl⟩
  · exact .inl rfl
  · exact .inl rfl
  · exact .inl rfl
  · exact .inl rfl
  · exact .inl (s.writeCfg_sup slot v)
  · exact .inl rfl
  · exact .inr ⟨rfl, rfl⟩

/-- Settles O56: only a frame step, Jump and the expiry write `sup`. Jump finds it ACTIVE, for while the supervisor waits
the machine is at POLL, and after the expiry `sup` is RUNNING_APPLICATION already. -/
theorem supervisorMakesOnlyItsThreeTransitions : Obligations.SupervisorMakesOnlyItsThreeTransitions := by
  intro s t h hstep hcycle
  cases step_moves hstep with
  | waits => exact .inl rfl
  | takesFrame d rest i hrun hctl hsup hrxq hdecode hexec =>
    rcases supervisor_of_exec hexec with ⟨hsees, htsup, httimer⟩ | ⟨_, htsup, _⟩
    · by_cases hwaiting : s.sup = .waitingForFirstFrame
      · exact .inr (.inl ⟨hwaiting, htsup.trans (if_pos hwaiting), hrun, hctl, httimer.trans (if_pos hwaiting),
          d, rest, i, hrxq, hdecode, hsees⟩)
      · exact .inl (htsup.trans (if_neg hwaiting))
    · exact .inl htsup
  | performs e rest hrun hctl hfx hperform =>
    rcases sup_of_performEffect hperform with hsame | ⟨rfl, hruns⟩
    · exact .inl hsame
    · cases hsup : s.sup with
      | waitingForFirstFrame => exact nomatch (h.waitingPolls hsup).symm.trans hctl
      | active => exact .inr (.inr (.inr ⟨rfl, hruns, hrun, hctl, by rw [hfx]; rfl⟩))
      | runningApplication => exact .inl hruns
  | expires hev hsup htimer hctl => exact .inr (.inr (.inl ⟨hsup, rfl, hev, rfl⟩))
  | arrives => exact .inl rfl
  | transmits => exact .inl rfl
  | cycles drawn hev => exact absurd hev (hcycle drawn)

/-- Settles O42: the BLPSM's own step has no case for HALT but the fault. -/
theorem haltHasNoStep : Obligations.HaltHasNoStep := by
  intro s hrun hctl
  rw [step_of_run hrun]
  simp only [coreStep, State.dropEvent_ctl, hctl]

/-- Settles O48: the step at EXEC performs the head of `fx`, and Jump is always ready. -/
theorem jumpHandsOverAndHalts : Obligations.JumpHandsOverAndHalts := by
  intro s rest hrun hctl hfx
  rw [step_of_effect hrun hctl hfx, performEffect, State.dropEvent]

/-- The timer's move (R243). -/
theorem step_of_expire {s : State} (h : s.nextEvent = .expire) : step s = .next (expireTimer s.dropEvent) := by
  simp only [step, h, stepEvent]

/-- Settles O49: the expiry's guard reads `sup`, `timer` and `ctl`, which taking the move off the list leaves. -/
theorem graceTimerExpiryLeavesTheBootloader : Obligations.GraceTimerExpiryLeavesTheBootloader := by
  intro s hev
  rw [step_of_expire hev, expireTimer]
  refine ⟨fun hsup htimer hctl => ?_, fun hdisabled => ?_⟩
  · rw [if_pos ⟨hsup, htimer, hctl⟩]
    simp [State.emit, State.settle, State.dropEvent]
  · have hguard : ¬ (s.sup = .waitingForFirstFrame ∧ s.timer = .armed ∧ s.ctl = .poll) := by tauto
    exact congrArg _ (if_neg hguard)

end Sys2Proof.Machine
end

/-! The deliveries that are no frame (30_encoding.md R101), and what every frame step emits and leaves unchanged
(10_state.md R45, R47; 30_encoding.md R103, R108). -/
section
namespace Sys2Proof.Machine

/-! ### The decoder's rejections -/

theorem decode_of_short {d : RxFrame} (h : d.bytes.length < 4) : decode d = .error .shortHeader := by
  unfold decode
  split
  · next hbytes =>
    simp only [hbytes, List.length_cons] at h
    omega
  · rfl

/-- A delivery with a header is judged by the delivered length, then by the payload's (R101). -/
theorem decode_of_header {d : RxFrame} (h : 4 ≤ d.bytes.length) :
    (4 < d.payloadLength → decode d = .error .payloadTooLong) ∧
    (d.payloadLength ≤ 4 → d.bytes.length ≠ 4 + d.payloadLength → decode d = .error .lengthMismatch) ∧
    (d.wf = true → ∃ i, decode d = .ok i) := by
  obtain ⟨bytes, len⟩ := d
  match bytes, h with
  | a :: k :: n :: c :: p, _ =>
    refine ⟨fun hlong => if_pos hlong, fun hlen (hne : p.length + 4 ≠ 4 + len) => ?_, fun hwf => ?_⟩
    · exact (if_neg (Nat.not_lt.mpr hlen)).trans (if_neg (show p.length ≠ len by omega))
    · simp only [RxFrame.wf, List.length_cons, Bool.and_eq_true, decide_eq_true_eq] at hwf
      obtain rfl : p.length = len := by omega
      exact ⟨_, decode_frame a k n c hwf.1⟩

theorem decode_of_wf {d : RxFrame} (h : d.wf = true) : ∃ i, decode d = .ok i := by
  have hheader : 4 ≤ d.bytes.length := by
    simp only [RxFrame.wf, Bool.and_eq_true, decide_eq_true_eq] at h
    omega
  exact (decode_of_header hheader).2.2 h

/-- Settles O3: the decoder's three checks, and that a well-formed delivery passes them. -/
theorem malformedDeliveriesAreRejectedByName : Obligations.MalformedDeliveriesAreRejectedByName := fun _ =>
  ⟨decode_of_short, fun h => (decode_of_header h).1, fun h => (decode_of_header h).2.1, decode_of_wf⟩

/-- Settles O4: the decoder computes on the five deliveries. -/
theorem specFramesDecodeAsTheSpecSays : Obligations.SpecFramesDecodeAsTheSpecSays := ⟨rfl, rfl, rfl, rfl, rfl⟩

/-! ### What a frame step leaves unchanged -/

/-- Settles O5: the filter drops the frame, and at POLL with nothing pending there is nothing to settle. -/
theorem invisibleFrameChangesNothing : Obligations.InvisibleFrameChangesNothing := by
  intro i s hctl hfx hunseen
  rw [exec_unseen hunseen, settle_of_idle hctl hfx]

/-- Every frame step leaves the memories, the ports, the configuration and the moves to come (R47, R59, R83). -/
theorem exec_frame {i : Instr} {s t : State} (h : exec i s = .next t) :
    t.pm = s.pm ∧ t.ee = s.ee ∧ t.slotBoard = s.slotBoard ∧ t.slotBitrate = s.slotBitrate ∧ t.fuse = s.fuse ∧
    t.board = s.board ∧ t.cfg = s.cfg ∧ t.rxq = s.rxq ∧ t.txq = s.txq ∧ t.events = s.events := by
  rcases exec_next h with ⟨_, rfl⟩ | ⟨_, _, rfl⟩ | ⟨_, _, _, rfl⟩ | ⟨_, _, u, r, hu, rfl⟩
  · simp
  · simp
  · simp
  · obtain ⟨hcfg, _, hboard, _, _, _, hrxq, htxq, hpm, hee, hslotBoard, hslotBitrate, hfuse, hevents⟩ :=
      handler_frame hu
    simp [hcfg, hboard, hrxq, htxq, hpm, hee, hslotBoard, hslotBitrate, hfuse, hevents]

/-- Settles O12: no handler and no other part of the course writes outside the Session and the effect list. -/
theorem frameStepsTouchNoMemoryAndNoPort : Obligations.FrameStepsTouchNoMemoryAndNoPort := by
  intro i s t h
  obtain ⟨hpm, hee, hports⟩ := exec_frame h
  exact ⟨fun a => by rw [hpm], fun a => by rw [hee], hports⟩

/-- A handler that is not DATA's leaves `chunk` and the page buffer, and one that is not SET_ADDRESS's either leaves the
whole Session (R47, D24). -/
theorem handler_session {c : Config} {i : Instr} {f : Fields} {s u : State} {r : Result} (hdata : ∀ g, i ≠ .data g)
    (h : Instr.handler c i f s = .ok (u, r)) :
    u.chunk = s.chunk ∧ u.pageBuffer = s.pageBuffer ∧
    ((∀ g, i ≠ .setAddress g) →
      u.phase = s.phase ∧ u.targetPage = s.targetPage ∧ u.bufferOffset = s.bufferOffset) := by
  by_cases haddress : ∃ g, i = .setAddress g
  · obtain ⟨g, rfl⟩ := haddress
    rcases handleSetAddress_ok h with ⟨rfl, _⟩ | ⟨_, _, _, _, rfl⟩
    · exact ⟨rfl, rfl, fun _ => ⟨rfl, rfl, rfl⟩⟩
    · exact ⟨rfl, rfl, fun hnot => absurd rfl (hnot g)⟩
  · obtain ⟨es, rfl⟩ := handler_emits hdata (fun g e => haddress ⟨g, e⟩) h
    exact ⟨rfl, rfl, fun _ => ⟨rfl, rfl, rfl⟩⟩

/-- Settles O13: the course of a frame writes no Session register but `msg`, and the handlers are those of
`handler_session`. -/
theorem otherCommandsLeaveTheSession : Obligations.OtherCommandsLeaveTheSession := by
  intro i s t h hdata
  rcases exec_next h with ⟨_, rfl⟩ | ⟨_, _, rfl⟩ | ⟨_, _, _, rfl⟩ | ⟨_, _, u, r, hu, rfl⟩
  · simp
  · simp
  · simp
  · obtain ⟨hchunk, hbuffer, hrest⟩ := handler_session hdata hu
    simpa [hchunk, hbuffer] using hrest

/-- The end of a group leaves the page buffer (R166–R168). -/
theorem completeGroup_pageBuffer {s u : State} {r : Result} (h : completeGroup s = .ok (u, r)) :
    u.pageBuffer = s.pageBuffer := by
  rcases completeGroup_ok h with ⟨_, rfl, _⟩ | ⟨_, _, rfl⟩ | ⟨rfl, _⟩ <;> rfl

/-- DATA's handler leaves the page buffer, or it takes the chunk and writes its four bytes in the slot (R162, R165). -/
theorem handleData_pageBuffer {f : Fields} {s u : State} {r : Result} (h : handleData f s = .ok (u, r)) :
    u.pageBuffer = s.pageBuffer ∨
    (s.Collects f ∧ s.InOrder f ∧ u.pageBuffer = s.pageBuffer.write (4 * s.bufferOffset.toNat) f.payload) := by
  rcases handleData_ok h with ⟨rfl, _⟩ | ⟨hlen, hslot, hphase, horder, c, _, ⟨_, _, rfl⟩ | ⟨_, hend⟩⟩
  · exact .inl rfl
  · exact .inr ⟨⟨hlen, hslot, hphase⟩, horder, rfl⟩
  · exact .inr ⟨⟨hlen, hslot, hphase⟩, horder, completeGroup_pageBuffer hend⟩

/-- The page buffer after DATA's frame step: as before, or the chunk was taken and its slot written. -/
theorem exec_data_pageBuffer {f : Fields} {s t : State} (h : exec (.data f) s = .next t) :
    t.pageBuffer = s.pageBuffer ∨
    (s.TakesChunk f ∧ t.pageBuffer = s.pageBuffer.write (4 * s.bufferOffset.toNat) f.payload) := by
  rcases exec_next h with ⟨_, rfl⟩ | ⟨_, _, rfl⟩ | ⟨_, _, _, rfl⟩ | ⟨_, hacc, u, r, hu, rfl⟩
  · exact .inl rfl
  · exact .inl rfl
  · exact .inl rfl
  · rw [State.settle_pageBuffer, State.answer_pageBuffer]
    exact (handleData_pageBuffer hu).imp_right fun ⟨hcollects, horder, hwritten⟩ =>
      ⟨⟨hacc, hcollects, horder⟩, hwritten⟩

/-- Settles O14: the only write of the page buffer is of the four payload bytes of a chunk that is taken. -/
theorem dataWritesOnlyItsSlot : Obligations.DataWritesOnlyItsSlot := by
  intro f s t h
  rcases exec_data_pageBuffer h with hsame | ⟨htakes, hwritten⟩
  · rw [hsame]
    exact ⟨fun _ _ => rfl, fun _ _ => rfl⟩
  · have ⟨_, ⟨hlen, _⟩, _⟩ := htakes
    rw [hwritten]
    exact ⟨fun a ha => Memory.read_write_outside _ (by rwa [hlen]), fun hnot => absurd htakes hnot⟩

/-! ### What a frame step emits -/

/-- A handler's own effects together with the reply are legal. -/
def EmitsLegally (code : Code) (s u : State) (r : Result) : Prop :=
  ∃ es, (u.answer code r).fx = s.fx ++ es ∧ ∀ e ∈ es, e.Legal s.cfg

theorem AnswersLegally.emitsLegally {code : Code} {s u : State} {r : Result} (h : AnswersLegally code s u r) :
    EmitsLegally code s u r := by
  obtain ⟨es, hanswer, hlegal, _⟩ := h
  exact ⟨es, by rw [hanswer, State.emit_fx], hlegal⟩

theorem completeGroup_emitsLegally (code : Code) {s u : State} {r : Result} (h : completeGroup s = .ok (u, r)) :
    EmitsLegally code s u r := by
  rcases completeGroup_ok h with ⟨_, rfl, rfl⟩ | ⟨hpage, rfl, rfl⟩ | ⟨rfl, rfl⟩
  · exact (answersLegally_error code u .eProtect (Nat.le_of_ble_eq_true rfl)).emitsLegally
  · have hlt : s.targetPage.toNat < s.cfg.maxPages.toNat := BitVec.lt_def.mp hpage
    exact (answersLegally_emit_success code (s := s) (p := bytesOf s.targetPage) (by simp [Effect.Legal, hlt]) (by simp)
      (Nat.le_of_ble_eq_true rfl)).emitsLegally
  · exact (answersLegally_success code u (p := []) (Nat.zero_le 4)).emitsLegally

theorem handleData_emitsLegally (code : Code) {f : Fields} {s u : State} {r : Result} (hp : f.payload.length ≤ 4)
    (h : handleData f s = .ok (u, r)) : EmitsLegally code s u r := by
  rcases handleData_ok h with ⟨rfl, w, rfl⟩ | ⟨_, _, _, _, c, _, ⟨_, rfl, rfl⟩ | ⟨_, hend⟩⟩
  · exact (answersLegally_error code s w hp).emitsLegally
  · exact (answersLegally_silent code s).emitsLegally
  · exact completeGroup_emitsLegally (s := storeChunk f.payload { s with chunk := c }) code hend

theorem handleSetAddress_emitsLegally (code : Code) {f : Fields} {s u : State} {r : Result}
    (hp : f.payload.length ≤ 4) (h : handleSetAddress f s = .ok (u, r)) : EmitsLegally code s u r := by
  rcases handleSetAddress_ok h with ⟨rfl, w, rfl⟩ | ⟨_, _, _, rfl, rfl⟩
  · exact (answersLegally_error code u w hp).emitsLegally
  · exact (answersLegally_success code s hp).emitsLegally

/-- Every handler emits legal effects, from any state (R45, R75, R103, R218, R224, R227). -/
theorem handler_emitsLegally (code : Code) {c : Config} {i : Instr} {f : Fields} {s u : State} {r : Result}
    (hp : f.payload.length ≤ 4) (h : Instr.handler c i f s = .ok (u, r)) : EmitsLegally code s u r := by
  by_cases hdata : ∃ g, i = .data g
  · obtain ⟨g, rfl⟩ := hdata
    exact handleData_emitsLegally code hp h
  by_cases haddress : ∃ g, i = .setAddress g
  · obtain ⟨g, rfl⟩ := haddress
    exact handleSetAddress_emitsLegally code hp h
  · exact (handler_answersLegally code (fun g e => hdata ⟨g, e⟩) (fun g e => haddress ⟨g, e⟩) hp h).emitsLegally

/-- A frame step appends legal effects. -/
theorem exec_emits_legal {i : Instr} {s t : State} (hwf : i.wf = true) (h : exec i s = .next t) :
    ∃ es, t.fx = s.fx ++ es ∧ ∀ e ∈ es, e.Legal s.cfg := by
  rcases exec_next h with ⟨_, rfl⟩ | ⟨_, _, rfl⟩ | ⟨_, _, _, rfl⟩ | ⟨_, _, u, r, hu, rfl⟩
  · exact ⟨[], (List.append_nil _).symm, nofun⟩
  · exact ⟨[], (List.append_nil _).symm, nofun⟩
  · exact ⟨_, rfl, List.forall_mem_singleton.mpr (legal_reply i.code (.inr (.inr rfl)) (Nat.zero_le 4))⟩
  · have hemits := handler_emitsLegally i.code (payload_length_le_of_wf hwf) hu
    exact hemits

/-- Settles O11: it is what a legal flash effect is. -/
theorem emittedFlashEffectsStayInTheWritableRegion : Obligations.EmittedFlashEffectsStayInTheWritableRegion := by
  intro i s t hwf h
  obtain ⟨es, hes, hlegal⟩ := exec_emits_legal hwf h
  exact ⟨es, hes, fun p hp => hlegal _ hp, fun p b hp => hlegal _ hp⟩

/-- A handler emitted `es` itself; every reply among them is a SUCCESS of the request's code. -/
def EmitsReplies (code : Code) (s u : State) : Prop :=
  ∃ es, u.fx = s.fx ++ es ∧ ∀ c p, Effect.send c p ∈ es → c = replyCommand kindSuccess code

theorem emitsReplies_of_fx (code : Code) {s u : State} (h : u.fx = s.fx) : EmitsReplies code s u :=
  ⟨[], by rw [h, List.append_nil], nofun⟩

theorem emitsReplies_quietly (code : Code) {s u : State} {es : List Effect} (hfx : u.fx = s.fx ++ es)
    (hes : ∀ e ∈ es, e.isSend = false) : EmitsReplies code s u :=
  ⟨es, hfx, fun _ _ hsend => nomatch hes _ hsend⟩

theorem raiseError_emitsReplies {w : Cause} {f : Fields} {s u : State} {r : Result} (code : Code)
    (h : raiseError w f s = .ok (u, r)) : EmitsReplies code s u := by
  obtain ⟨rfl, _⟩ := raiseError_ok.mp h
  exact emitsReplies_of_fx code rfl

theorem withLength_emitsReplies {n : Nat} {g : Handler} {f : Fields} {s u : State} {r : Result} {code : Code}
    (hg : g f s = .ok (u, r) → EmitsReplies code s u) (h : withLength n g f s = .ok (u, r)) :
    EmitsReplies code s u := by
  by_cases hn : f.payload.length = n
  · rw [withLength_right hn] at h
    exact hg h
  · rw [withLength_wrong hn] at h
    exact raiseError_emitsReplies code h

theorem optional_emitsReplies {b : Bool} {g : Handler} {f : Fields} {s u : State} {r : Result} {code : Code}
    (hg : g f s = .ok (u, r) → EmitsReplies code s u) (h : optional b g f s = .ok (u, r)) : EmitsReplies code s u := by
  cases b with
  | false => exact raiseError_emitsReplies code h
  | true => exact hg h

theorem completeGroup_emitsReplies (code : Code) {s u : State} {r : Result} (h : completeGroup s = .ok (u, r)) :
    EmitsReplies code s u := by
  rcases completeGroup_ok h with ⟨_, rfl, _⟩ | ⟨_, _, rfl⟩ | ⟨rfl, _⟩
  · exact emitsReplies_of_fx code rfl
  · exact emitsReplies_quietly code rfl (by simp [Effect.isSend])
  · exact emitsReplies_of_fx code rfl

/-- No handler sends a reply itself but START_APP's, whose reply is its own (R200). -/
theorem handler_emitsReplies {c : Config} {i : Instr} {f : Fields} {s u : State} {r : Result}
    (h : Instr.handler c i f s = .ok (u, r)) : EmitsReplies i.code s u := by
  cases i with
  | noOperation g =>
    rw [Instr.handler, handleNoOperation] at h
    refine withLength_emitsReplies (fun h => ?_) h
    cases h
    exact emitsReplies_quietly _ rfl (by simp [Effect.isSend])
  | identify g =>
    rw [Instr.handler, handleIdentify] at h
    refine withLength_emitsReplies (fun h => ?_) h
    cases h
    exact emitsReplies_of_fx _ rfl
  | setAddress g =>
    rcases handleSetAddress_ok h with ⟨rfl, _⟩ | ⟨_, _, _, _, rfl⟩ <;> exact emitsReplies_of_fx _ rfl
  | data g =>
    rcases handleData_ok h with ⟨rfl, _⟩ | ⟨_, _, _, _, c, _, ⟨_, _, rfl⟩ | ⟨_, hend⟩⟩
    · exact emitsReplies_of_fx _ rfl
    · exact emitsReplies_of_fx _ rfl
    · exact completeGroup_emitsReplies (s := storeChunk f.payload { s with chunk := c }) _ hend
  | startApp g =>
    rw [Instr.handler, handleStartApp] at h
    refine withLength_emitsReplies (fun h => ?_) h
    cases h
    exact ⟨[.send (replyCommand kindSuccess 4) [], .jump], by simp, by simp [Instr.code]⟩
  | readFlash g =>
    refine optional_emitsReplies (withLength_emitsReplies fun h => ?_) h
    split at h
    · exact raiseError_emitsReplies _ h
    · split at h
      · cases h; exact emitsReplies_of_fx _ rfl
      · cases h
  | getFusebits g =>
    refine optional_emitsReplies (withLength_emitsReplies fun h => ?_) h
    cases h
    exact emitsReplies_of_fx _ rfl
  | chipErase g =>
    refine optional_emitsReplies (withLength_emitsReplies fun h => ?_) h
    cases h
    exact emitsReplies_quietly _ rfl (by simp [eraseAll, or_imp, forall_and, Effect.isSend])
  | readEeprom g =>
    refine optional_emitsReplies (withLength_emitsReplies fun h => ?_) h
    split at h
    · exact raiseError_emitsReplies _ h
    · split at h
      · cases h; exact emitsReplies_of_fx _ rfl
      · cases h
  | writeEeprom g =>
    refine optional_emitsReplies (fun h => ?_) h
    unfold handleWriteEeprom at h
    split at h
    · exact raiseError_emitsReplies _ h
    · split at h
      · exact raiseError_emitsReplies _ h
      · cases h; exact emitsReplies_quietly _ rfl (by simp [Effect.isSend])
  | setBoardId g =>
    refine optional_emitsReplies (withLength_emitsReplies fun h => ?_) h
    split at h
    · exact raiseError_emitsReplies _ h
    · cases h; exact emitsReplies_quietly _ rfl (by simp [Effect.isSend])
  | setBitrate g =>
    refine optional_emitsReplies (withLength_emitsReplies fun h => ?_) h
    split at h
    · exact raiseError_emitsReplies _ h
    · cases h; exact emitsReplies_quietly _ rfl (by simp [Effect.isSend])
  | unrecognizedRequest _ _ | ignoredKindSuccess _ _ | ignoredKindError _ _ | ignoredKindWrongNumber _ _ =>
    exact raiseError_emitsReplies _ h

/-- The command byte of a reply of the three kinds to `code`. -/
def IsReplyTo (code : Code) (command : Byte) : Prop :=
  command = replyCommand kindSuccess code ∨ command = replyCommand kindError code ∨
    command = replyCommand kindWrongNumber code

theorem IsReplyTo.code_eq {code : Code} {command : Byte} (h : IsReplyTo code command) :
    command.toNat % 64 = code.toNat := by
  rcases h with rfl | rfl | rfl <;> revert code <;> decide

/-- The dispatcher adds at most one reply, of the request's code (R138–R140). -/
theorem answer_fx (s : State) (code : Code) (r : Result) :
    ∃ es, (s.answer code r).fx = s.fx ++ es ∧ ∀ c p, Effect.send c p ∈ es → IsReplyTo code c := by
  cases r with
  | success p => exact ⟨_, rfl, by simp [IsReplyTo]⟩
  | silent => exact ⟨[], (List.append_nil _).symm, nofun⟩
  | error w p => exact ⟨_, rfl, by simp [IsReplyTo]⟩

/-- A frame step sends replies to its own code alone. -/
theorem exec_emits_replies {i : Instr} {s t : State} (h : exec i s = .next t) :
    ∃ es, t.fx = s.fx ++ es ∧ ∀ c p, Effect.send c p ∈ es → IsReplyTo i.code c := by
  rcases exec_next h with ⟨_, rfl⟩ | ⟨_, _, rfl⟩ | ⟨_, _, _, rfl⟩ | ⟨_, _, u, r, hu, rfl⟩
  · exact ⟨[], (List.append_nil _).symm, nofun⟩
  · exact ⟨[], (List.append_nil _).symm, nofun⟩
  · exact ⟨_, rfl, by simp [IsReplyTo]⟩
  · obtain ⟨es, hes, hown⟩ := handler_emitsReplies hu
    obtain ⟨es', hes', hreply⟩ := answer_fx u i.code r
    refine ⟨es ++ es', ?_, fun c p hsend => ?_⟩
    · rw [State.settle_fx, hes', hes, List.append_assoc]
      rfl
    · rcases List.mem_append.mp hsend with hsend | hsend
      · exact .inl (hown c p hsend)
      · exact hreply c p hsend

/-- Settles O10: every `Send` is legal, and a reply to the frame's own code. -/
theorem onlyRepliesToTheRequestAreSent : Obligations.OnlyRepliesToTheRequestAreSent := by
  intro i s t hwf h
  obtain ⟨es, hes, hlegal⟩ := exec_emits_legal hwf h
  obtain ⟨es', hes', hreply⟩ := exec_emits_replies h
  obtain rfl : es = es' := List.append_cancel_left (hes.symm.trans hes')
  refine ⟨es, hes, fun c p hsend => ?_⟩
  obtain ⟨hkind, hlen⟩ := hlegal _ hsend
  exact ⟨by omega, (hreply c p hsend).code_eq, hlen⟩

end Sys2Proof.Machine
end

/-! The page-buffer controller (41_page_buffer.md): the DATA chunks that are taken, and the page they assemble. -/
section
namespace Sys2Proof.Machine

/-! ### Runs of bytes in a memory -/

theorem Memory.readBytes_eq_map (m : Memory) (a n : Nat) :
    m.readBytes a n = (List.range n).map (fun k => m.read (a + k)) :=
  List.ext_getElem (by simp) fun k hk _ => by simp [Memory.getElem_readBytes]

theorem Memory.map_read_range (m : Memory) (n : Nat) : (List.range n).map m.read = m.readBytes 0 n := by
  simp [Memory.readBytes_eq_map]

/-- A run written behind the bytes from address 0 extends them. -/
theorem Memory.readBytes_write (m : Memory) (a : Nat) (bs : List Byte) :
    (m.write a bs).readBytes 0 (a + bs.length) = m.readBytes 0 a ++ bs := by
  refine List.ext_getElem (by simp) fun k hk _ => ?_
  rw [Memory.getElem_readBytes, Nat.zero_add, List.getElem_append]
  split
  · next h =>
    rw [Memory.length_readBytes] at h
    rw [Memory.getElem_readBytes, Nat.zero_add, Memory.read_write_outside m (by omega)]
  · next h =>
    rw [Memory.length_readBytes] at h hk
    obtain ⟨j, rfl⟩ := Nat.exists_eq_add_of_le (Nat.le_of_not_lt h)
    rw [Memory.read_write_inside m a bs j (by omega)]
    simp

/-! ### The frame step of a chunk that is taken -/

/-- A u16 in frame order, as numbers (20_memory.md R77). -/
theorem bytesOf_eq (v : Half) : bytesOf v = [BitVec.ofNat 8 (v.toNat / 256), BitVec.ofNat 8 (v.toNat % 256)] := by
  rw [bytesOf, ← hi_toNat, ← lo_toNat, BitVec.ofNat_toNat, BitVec.ofNat_toNat, BitVec.setWidth_eq, BitVec.setWidth_eq]

theorem countdown_eq (f : Fields) : countdown f.chunkCounter = BitVec.ofNat 8 (chunkCount f) :=
  BitVec.eq_of_toNat_eq (by simp [chunkCount]; omega)

/-- A chunk in order is accepted with its own 7-bit counter, whether that is reloaded or expected (R163, R164). -/
theorem handleData_of_takes {f : Fields} {s : State} (hcollects : s.Collects f) (horder : s.InOrder f) :
    handleData f s =
      acceptChunk (BitVec.ofNat 8 (chunkCount f)) f.payload { s with chunk := BitVec.ofNat 8 (chunkCount f) } := by
  obtain ⟨hlen, hoffset, hphase⟩ := hcollects
  rw [handleData, if_neg (not_not.mpr hlen), if_neg (Nat.not_le.mpr hoffset), if_neg (by simp [hphase]),
    ← countdown_eq, ← hphase]
  by_cases hstart : StartsGroup f
  · rw [if_pos ((startOfGroup_iff f).mpr hstart)]
  · have hcounter : f.chunkCounter = s.chunk := horder.resolve_left hstart
    have hown : countdown f.chunkCounter = f.chunkCounter := BitVec.eq_of_toNat_eq (by
      rw [countdown_toNat, Nat.mod_eq_of_lt (Nat.lt_of_not_le hstart)])
    rw [if_neg ((startOfGroup_iff f).not.mpr hstart), if_pos hcounter, hown, hcounter]

/-- Storing the chunk, in the words of the statements (R165). -/
theorem storeChunk_eq_withChunk (f : Fields) (s : State) :
    storeChunk f.payload { s with chunk := BitVec.ofNat 8 (chunkCount f) } = s.withChunk f := by
  have hlt : chunkCount f < 128 := Nat.mod_lt _ (by decide)
  have hslot : s.bufferOffset + 1 = BitVec.ofNat 16 (s.bufferOffset.toNat + 1) :=
    BitVec.eq_of_toNat_eq (by simp)
  have hcount : satDec (BitVec.ofNat 8 (chunkCount f)) = BitVec.ofNat 8 (chunkCount f - 1) :=
    BitVec.eq_of_toNat_eq (by simp; omega)
  simp only [storeChunk, State.withChunk, hslot, hcount]

/-- The controller's answer to a chunk that is taken: stored, and the end of the group if it is terminal (R165). -/
theorem handleData_stores {f : Fields} {s : State} (h : s.TakesChunk f) :
    handleData f s.firstFrame.advance =
      if chunkCount f = 0 then completeGroup (s.withChunk f).firstFrame.advance
      else .ok ((s.withChunk f).firstFrame.advance, .silent) := by
  obtain ⟨_, hcollects, horder⟩ := h
  have hterminal : BitVec.ofNat 8 (chunkCount f) = (0 : Byte) ↔ chunkCount f = 0 := by
    rw [← countdown_eq, ← BitVec.toNat_inj, countdown_toNat]
    rfl
  have hstored := storeChunk_eq_withChunk f s.firstFrame.advance
  have hcourse : s.firstFrame.advance.withChunk f = (s.withChunk f).firstFrame.advance := rfl
  rw [handleData_of_takes (s := s.firstFrame.advance) hcollects horder, acceptChunk, hstored, hcourse,
    if_congr hterminal rfl rfl]

theorem exec_data_of_not_terminal {f : Fields} {s : State} (h : s.TakesChunk f) (hcount : chunkCount f ≠ 0) :
    exec (.data f) s = .next ((s.withChunk f).accepted []) := by
  have hu : Instr.handler s.cfg (.data f) f s.firstFrame.advance = .ok ((s.withChunk f).firstFrame.advance, .silent) :=
    (handleData_stores h).trans (if_neg hcount)
  rw [exec_accepted rfl h.1, Instr.fields, hu]
  exact congrArg _ (accepted_silent _)

/-- A terminal chunk is answered as the end of its group says (R166–R168). -/
theorem exec_data_of_terminal {f : Fields} {s u : State} {r : Result} (h : s.TakesChunk f) (hcount : chunkCount f = 0)
    (hend : completeGroup (s.withChunk f).firstFrame.advance = .ok (u, r)) :
    exec (.data f) s = .next (u.answer 3 r).settle := by
  have hu : Instr.handler s.cfg (.data f) f s.firstFrame.advance = .ok (u, r) :=
    ((handleData_stores h).trans (if_pos hcount)).trans hend
  rw [exec_accepted rfl h.1, Instr.fields, hu]
  rfl

/-- The slot after a free one is a u16 (10_state.md R34). -/
theorem withChunk_bufferOffset {f : Fields} {s : State} (h : s.Collects f) (hchunks : s.cfg.chunks ≤ 65535) :
    (s.withChunk f).bufferOffset.toNat = s.bufferOffset.toNat + 1 := by
  obtain ⟨_, hslot, _⟩ := h
  exact (BitVec.toNat_ofNat _ _).trans (Nat.mod_eq_of_lt (by omega))

/-- Chunks with the same counter are answered alike where storing them leaves the same state. -/
theorem exec_data_congr {f g : Fields} {s t : State} (hf : s.TakesChunk f) (hg : t.TakesChunk g)
    (hcount : chunkCount f = chunkCount g) (hstored : s.withChunk f = t.withChunk g) :
    exec (.data f) s = exec (.data g) t := by
  have hu : Instr.handler s.cfg (.data f) f s.firstFrame.advance =
      Instr.handler t.cfg (.data g) g t.firstFrame.advance := by
    rw [Instr.handler, Instr.handler, handleData_stores hf, handleData_stores hg, hcount, hstored]
  rw [exec_accepted rfl hf.1, exec_accepted rfl hg.1, Instr.fields, Instr.fields, hu]
  rfl

/-- Settles O33: the chunk without the flag has the same counter and is the one its state expects, and the two states
differ only where storing the chunk writes. -/
theorem startOfGroupReloadsTheCountdown : Obligations.StartOfGroupReloadsTheCountdown := by
  intro f s hacc hcollects hstart
  obtain ⟨hlen, hoffset, hphase⟩ := hcollects
  have hcount : chunkCount f = chunkCount { f with chunkCounter := BitVec.ofNat 8 (chunkCount f) } := by
    simp only [chunkCount, BitVec.toNat_ofNat]
    omega
  refine exec_data_congr ⟨hacc, ⟨hlen, hoffset, hphase⟩, .inl hstart⟩ ⟨hacc, ⟨hlen, hoffset, rfl⟩, .inr rfl⟩ hcount ?_
  rw [State.withChunk, State.withChunk, ← hcount, ← hphase]

/-- Settles O35: the chunk is stored, and a write reads back. -/
theorem nonTerminalChunkIsStoredSilently : Obligations.NonTerminalChunkIsStoredSilently := by
  refine fun f s h hcount => ⟨exec_data_of_not_terminal h hcount, fun k b hk => ?_⟩
  obtain ⟨hlt, rfl⟩ := List.getElem?_eq_some_iff.mp hk
  exact Memory.read_write_inside _ _ _ k hlt

/-- Settles O36: the next slot is not the end of the page, so the group ends with the acknowledgement. -/
theorem terminalChunkOfAPartialPageIsAcknowledged : Obligations.TerminalChunkOfAPartialPageIsAcknowledged := by
  intro f s h hcount hchunks hpartial
  have ⟨_, hcollects, _⟩ := h
  have hnext := withChunk_bufferOffset hcollects hchunks
  have hend : completeGroup (s.withChunk f).firstFrame.advance =
      .ok ((s.withChunk f).firstFrame.advance, .success []) :=
    if_neg (hnext.trans_ne hpartial)
  rw [exec_data_of_terminal h hcount hend]
  exact congrArg _ (accepted_success _ 3 [])

/-- Settles O37: the page is full and protected, so the group ends with the refusal. -/
theorem fullProtectedPageIsRefused : Obligations.FullProtectedPageIsRefused := by
  intro f s h hcount hchunks hfull hpage
  have ⟨_, hcollects, _⟩ := h
  have hnext := withChunk_bufferOffset hcollects hchunks
  have hend : completeGroup (s.withChunk f).firstFrame.advance =
      .ok ((s.withChunk f).firstFrame.advance, .error .eProtect (bytesOf s.targetPage)) :=
    (if_pos (hnext.trans hfull)).trans (if_pos hpage)
  rw [exec_data_of_terminal h hcount hend, ← bytesOf_eq]
  exact congrArg _ (accepted_error _ 3 .eProtect _)

/-- Settles O38: the page is full and writable, so the group ends with the commit of the whole page buffer. -/
theorem fullPageIsCommitted : Obligations.FullPageIsCommitted := by
  intro f s h hcount hchunks hfull hpage
  have ⟨_, hcollects, _⟩ := h
  have hnext := withChunk_bufferOffset hcollects hchunks
  have hend : completeGroup (s.withChunk f).firstFrame.advance = commitPage (s.withChunk f).firstFrame.advance :=
    (if_pos (hnext.trans hfull)).trans (if_neg (Nat.not_le.mpr hpage))
  have htarget : s.targetPage + 1 = BitVec.ofNat 16 (s.targetPage.toNat + 1) := BitVec.eq_of_toNat_eq (by simp)
  rw [exec_data_of_terminal h hcount hend, ← bytesOf_eq, Memory.map_read_range, ← htarget]
  exact congrArg _
    (accepted_emit_success { s.withChunk f with bufferOffset := 0, targetPage := s.targetPage + 1 } 3 _ _)

/-! ### Assembling a page -/

/-- The bytes gathered so far: the page buffer below the next slot (R165). -/
def State.gathered (s : State) : List Byte := s.pageBuffer.readBytes 0 (4 * s.bufferOffset.toNat)

/-- From `s` to `t` the controller gathered `n` more chunks, with the bytes `bs`, of one page, and touched no flash. -/
structure State.Gathers (s : State) (n : Nat) (bs : List Byte) (t : State) : Prop where
  cfg : t.cfg = s.cfg
  target : t.targetPage = s.targetPage
  offset : t.bufferOffset.toNat = s.bufferOffset.toNat + n
  bytes : t.gathered = s.gathered ++ bs
  noFlash : t.fx.filter Effect.isFlash = s.fx.filter Effect.isFlash

theorem gathers_refl (s : State) : s.Gathers 0 [] s := ⟨rfl, rfl, rfl, (List.append_nil _).symm, rfl⟩

theorem State.Gathers.trans {s t u : State} {n m : Nat} {bs cs : List Byte} (h : s.Gathers n bs t)
    (h' : t.Gathers m cs u) : s.Gathers (n + m) (bs ++ cs) u where
  cfg := h'.cfg.trans h.cfg
  target := h'.target.trans h.target
  offset := by rw [h'.offset, h.offset, Nat.add_assoc]
  bytes := by rw [h'.bytes, h.bytes, List.append_assoc]
  noFlash := h'.noFlash.trans h.noFlash

/-- Storing a chunk in the next slot gathers its bytes (R165). -/
theorem gathered_withChunk {f : Fields} {s : State} (hcollects : s.Collects f) (hchunks : s.cfg.chunks ≤ 65535) :
    (s.withChunk f).gathered = s.gathered ++ f.payload := by
  rw [State.gathered, withChunk_bufferOffset hcollects hchunks, Nat.mul_succ]
  nth_rw 2 [← hcollects.1]
  exact Memory.readBytes_write _ _ _

/-- A chunk that does not fill the page is gathered, terminal or not (R165, R168). -/
theorem exec_data_gathers {f : Fields} {s : State} (h : s.TakesChunk f) (hchunks : s.cfg.chunks ≤ 65535)
    (hroom : s.bufferOffset.toNat + 1 < s.cfg.chunks) :
    ∃ t, exec (.data f) s = .next t ∧ s.Gathers 1 f.payload t := by
  have ⟨_, hcollects, _⟩ := h
  have hgathers (es : List Effect) (hes : es.filter Effect.isFlash = []) :
      s.Gathers 1 f.payload ((s.withChunk f).accepted es) :=
    { cfg := rfl
      target := rfl
      offset := withChunk_bufferOffset hcollects hchunks
      bytes := gathered_withChunk hcollects hchunks
      noFlash := by
        rw [← List.append_nil (s.fx.filter _), ← hes, ← List.filter_append]
        rfl }
  by_cases hcount : chunkCount f = 0
  · exact ⟨_, terminalChunkOfAPartialPageIsAcknowledged f s h hcount hchunks hroom.ne, hgathers _ rfl⟩
  · exact ⟨_, exec_data_of_not_terminal h hcount, hgathers _ rfl⟩

/-- A chunk that is fed was taken, and its frame answered a next state, from which the rest was fed. -/
theorem feedChunks_cons {s t : State} {f : Fields} {fs : List Fields} (h : s.feedChunks (f :: fs) = some t) :
    s.TakesChunk f ∧ ∃ u, exec (.data f) s = .next u ∧ u.feedChunks fs = some t := by
  rw [State.feedChunks] at h
  split at h
  · next htakes =>
    split at h
    · next u hexec => exact ⟨htakes, u, hexec, h⟩
    · cases h
    · cases h
  · cases h

/-- Chunks fed before the one that fills the page are gathered, in any grouping; `last` is then fed from there. -/
theorem feedChunks_gathers {s t : State} {fs : List Fields} {last : Fields} (hchunks : s.cfg.chunks ≤ 65535)
    (hroom : s.bufferOffset.toNat + fs.length < s.cfg.chunks) (h : s.feedChunks (fs ++ [last]) = some t) :
    ∃ u, s.Gathers fs.length (fs.flatMap Fields.payload) u ∧ u.TakesChunk last ∧ exec (.data last) u = .next t := by
  induction fs generalizing s with
  | nil =>
    obtain ⟨htakes, u, hexec, hrest⟩ := feedChunks_cons h
    cases hrest
    exact ⟨s, gathers_refl s, htakes, hexec⟩
  | cons f fs ih =>
    rw [List.length_cons] at hroom
    obtain ⟨htakes, v, hexec, hrest⟩ := feedChunks_cons h
    obtain ⟨v', hexec', hstep⟩ := exec_data_gathers htakes hchunks (by omega)
    obtain rfl : v' = v := by
      rw [hexec] at hexec'
      cases hexec'
      rfl
    obtain ⟨u, hgathers, hlast⟩ := ih (by rwa [hstep.cfg]) (by rw [hstep.cfg, hstep.offset]; omega) hrest
    refine ⟨u, ?_, hlast⟩
    rw [List.length_cons, List.flatMap_cons, Nat.add_comm]
    exact hstep.trans hgathers

/-- Settles O39, by induction over the chunks before the last: each is gathered in the next slot, and the last one fills
the page and commits what was gathered. -/
theorem chunksInOrderAssembleAndCommitThePage : Obligations.ChunksInOrderAssembleAndCommitThePage := by
  intro s t fs last hcfg hfx hoffset hpage hnumber hcount hfed
  obtain ⟨_, hmultiple, hchunks, _⟩ := hcfg
  have hzero : s.bufferOffset.toNat = 0 := by rw [hoffset]; rfl
  have hsize : s.cfg.pageSize = 4 * s.cfg.chunks := by rw [Config.chunks]; omega
  rw [List.length_append, List.length_singleton] at hnumber
  obtain ⟨u, hu, htakes, hexec⟩ := feedChunks_gathers hchunks (by omega) hfed
  have ⟨_, hcollects, _⟩ := htakes
  have huchunks : u.cfg.chunks ≤ 65535 := by rwa [hu.cfg]
  have hfull : u.bufferOffset.toNat + 1 = u.cfg.chunks := by rw [hu.offset, hu.cfg, hzero]; omega
  have hbytes : (List.range s.cfg.pageSize).map (u.withChunk last).pageBuffer.read =
      (fs ++ [last]).flatMap Fields.payload :=
    calc (List.range s.cfg.pageSize).map (u.withChunk last).pageBuffer.read
        = (u.withChunk last).gathered := by
          rw [State.gathered, withChunk_bufferOffset hcollects huchunks, hfull, hu.cfg, ← hsize,
            Memory.map_read_range]
      _ = s.gathered ++ fs.flatMap Fields.payload ++ last.payload := by
          rw [gathered_withChunk hcollects huchunks, hu.bytes]
      _ = (fs ++ [last]).flatMap Fields.payload := by
          rw [State.gathered, hzero, List.flatMap_append, List.flatMap_singleton]
          rfl
  rw [fullPageIsCommitted last u htakes hcount huchunks hfull (by rwa [hu.cfg, hu.target]), hu.target, hu.cfg,
    hbytes] at hexec
  cases hexec
  have hquiet : (u.withChunk last).fx.filter Effect.isFlash = [] := hu.noFlash.trans (by rw [hfx, List.filter_nil])
  refine ⟨hbytes, ?_, rfl, (BitVec.toNat_ofNat _ _).trans (Nat.mod_eq_of_lt ?_)⟩
  · exact (List.filter_append ..).trans (by rw [hquiet]; rfl)
  · have := s.cfg.maxPages.isLt
    omega

end Sys2Proof.Machine
end

/-! The commands (42_commands.md): what each answers in bounds, out of bounds and when the build leaves it out. -/
section
namespace Sys2Proof.Machine

/-! ### How an accepted request is answered -/

/-- An accepted request whose handler only emits, and is silent (R140). -/
theorem exec_of_emit_silent {i : Instr} {s : State} {es : List Effect} (hkind : i.kind = 0)
    (hacc : s.Accepts i.code i.fields)
    (h : Instr.handler s.cfg i i.fields s.firstFrame.advance = .ok (s.firstFrame.advance.emit es, .silent)) :
    exec i s = .next (s.accepted es) := by
  rw [exec_accepted hkind hacc, h]
  exact congrArg _ (accepted_emit s es)

/-- An accepted request whose handler only emits, and succeeds: the effects, then the SUCCESS reply (R138). -/
theorem exec_of_emit_success {i : Instr} {s : State} {es : List Effect} {p : List Byte} (hkind : i.kind = 0)
    (hacc : s.Accepts i.code i.fields)
    (h : Instr.handler s.cfg i i.fields s.firstFrame.advance = .ok (s.firstFrame.advance.emit es, .success p)) :
    exec i s = .next (s.accepted (es ++ [.send (answerByte 1 i.code) p])) := by
  rw [exec_accepted hkind hacc, h]
  exact congrArg _ (accepted_emit_success s i.code es p)

/-! ### The operands as numbers (30_encoding.md R107) -/

@[simp] theorem pageOf_toNat (p0 p1 : Byte) (ps : List Byte) :
    (pageOf (p0 :: p1 :: ps)).toNat = p0.toNat * 256 + p1.toNat := be16_toNat p0 p1

@[simp] theorem offsetOf_toNat (p0 p1 o0 o1 : Byte) (ps : List Byte) :
    (offsetOf (p0 :: p1 :: o0 :: o1 :: ps)).toNat = o0.toNat * 256 + o1.toNat := be16_toNat o0 o1

@[simp] theorem addrOf_toNat (a0 a1 : Byte) (ps : List Byte) :
    (addrOf (a0 :: a1 :: ps)).toNat = a0.toNat * 256 + a1.toNat := be16_toNat a0 a1

@[simp] theorem countOf_cons (a0 a1 n : Byte) (ps : List Byte) : countOf (a0 :: a1 :: n :: ps) = n := rfl

@[simp] theorem dataOf_cons (a0 a1 : Byte) (ds : List Byte) : dataOf (a0 :: a1 :: ds) = ds := rfl

/-! ### Requests that no handler of the build serves -/

/-- Settles O16: each of the seven flags, when it is false, puts the handler of R230 in the command's place. -/
theorem absentOptionalCommandsAreUnrecognised : Obligations.AbsentOptionalCommandsAreUnrecognised := by
  intro i s habsent hacc
  cases i with
  | readFlash f | getFusebits f | chipErase f | readEeprom f | writeEeprom f | setBoardId f | setBitrate f =>
    exact exec_of_raiseError rfl hacc (optional_absent habsent)
  | noOperation f | identify f | setAddress f | data f | startApp f => exact absurd habsent.symm Bool.false_ne_true
  | unrecognizedRequest c f | ignoredKindSuccess c f | ignoredKindError c f | ignoredKindWrongNumber c f =>
    exact absurd habsent.symm Bool.false_ne_true

/-- Settles O17: the handler of R230 raises, whatever the code. -/
theorem unrecognisedRequestIsEchoed : Obligations.UnrecognisedRequestIsEchoed :=
  fun code f _ hacc => exec_of_raiseError (i := .unrecognizedRequest code f) (w := .eUnknown) rfl hacc rfl

/-! ### The commands every build has -/

/-- Settles O18: without a payload the handler emits the toggle alone; with one, the length check raises. -/
theorem noOperationTogglesTheIndicatorSilently : Obligations.NoOperationTogglesTheIndicatorSilently := by
  refine fun f s hacc => ⟨fun hempty => ?_, fun hpayload => ?_⟩
  · refine exec_of_emit_silent (i := .noOperation f) rfl hacc ?_
    rw [Instr.handler, handleNoOperation]
    exact withLength_right (List.length_eq_zero_iff.mpr hempty)
  · exact wrongLengthIsAnErrorAndNothingElse (.noOperation f) s (by simpa [Instr.lengthWrong] using hpayload) rfl hacc

/-- Settles O22: without a payload the handler emits its own reply and then Jump; with one, the length check raises. -/
theorem startAppRepliesThenJumps : Obligations.StartAppRepliesThenJumps := by
  refine fun f s hacc => ⟨fun hempty => ?_, fun hpayload => ?_⟩
  · refine exec_of_emit_silent (i := .startApp f) rfl hacc ?_
    rw [Instr.handler, handleStartApp]
    refine (withLength_right (List.length_eq_zero_iff.mpr hempty)).trans ?_
    simp [State.reply, State.emit, replyCommand_success, answerByte]
  · exact wrongLengthIsAnErrorAndNothingElse (.startApp f) s (by simpa [Instr.lengthWrong] using hpayload) rfl hacc

/-- SET_ADDRESS in range sets the page, the slot and the phase, and echoes (R193). -/
theorem handleSetAddress_of_inRange {f : Fields} {s : State} {p0 p1 o0 o1 : Byte} (hp : f.payload = [p0, p1, o0, o1])
    (hpage : p0.toNat * 256 + p1.toNat < s.cfg.maxPages.toNat) (hoffset : o0.toNat * 256 + o1.toNat < s.cfg.chunks) :
    handleSetAddress f s = .ok ({ s with
      targetPage := BitVec.ofNat 16 (p0.toNat * 256 + p1.toNat)
      bufferOffset := BitVec.ofNat 16 (o0.toNat * 256 + o1.toNat)
      phase := .collectingPage }, .success [p0, p1, o0, o1]) := by
  have hpageOf : BitVec.ofNat 16 (p0.toNat * 256 + p1.toNat) = pageOf [p0, p1, o0, o1] := by
    rw [← pageOf_toNat p0 p1 [o0, o1], BitVec.ofNat_toNat, BitVec.setWidth_eq]
  have hoffsetOf : BitVec.ofNat 16 (o0.toNat * 256 + o1.toNat) = offsetOf [p0, p1, o0, o1] := by
    rw [← offsetOf_toNat p0 p1 o0 o1 [], BitVec.ofNat_toNat, BitVec.setWidth_eq]
  rw [handleSetAddress, withLength_right (by rw [hp]; rfl), hp, hpageOf, hoffsetOf]
  refine if_neg ?_
  rw [BitVec.le_def, pageOf_toNat, offsetOf_toNat]
  omega

/-- Settles O21: both bounds hold, so the handler sets the three registers, and the reply leaves them. -/
theorem setAddressStartsATransfer : Obligations.SetAddressStartsATransfer := by
  intro f s p0 p1 o0 o1 hacc hp hpage hoffset
  have hu : Instr.handler s.cfg (.setAddress f) f s.firstFrame.advance = _ :=
    handleSetAddress_of_inRange (s := s.firstFrame.advance) hp hpage hoffset
  rw [exec_accepted rfl hacc, Instr.fields, hu]
  exact congrArg _ (accepted_success { s with
    targetPage := BitVec.ofNat 16 (p0.toNat * 256 + p1.toNat)
    bufferOffset := BitVec.ofNat 16 (o0.toNat * 256 + o1.toNat)
    phase := .collectingPage } 2 _)

/-! ### Reading and erasing program memory -/

/-- READ_FLASH of a slot that exists reads its four bytes (R205). -/
theorem handleReadFlash_of_inRange {f : Fields} {s : State} {p0 p1 o0 o1 : Byte} (hp : f.payload = [p0, p1, o0, o1])
    (hpage : p0.toNat * 256 + p1.toNat < s.cfg.readFlashPageLimit)
    (hoffset : o0.toNat * 256 + o1.toNat < s.cfg.chunks) {a : Nat}
    (ha : a = (p0.toNat * 256 + p1.toNat) * s.cfg.pageSize + (o0.toNat * 256 + o1.toNat) * 4)
    (hend : a + 4 ≤ s.pmSize) :
    handleReadFlash f s = .ok (s, .success (s.pm.readBytes a 4)) := by
  have hread : s.readPm a 4 = .ok (s.pm.readBytes a 4) := if_pos hend
  rw [handleReadFlash, withLength_right (by rw [hp]; rfl), hp, pageOf_toNat, offsetOf_toNat, slotAddress, ← ha, hread]
  exact if_neg (not_or.mpr ⟨Nat.not_le.mpr hpage, Nat.not_le.mpr hoffset⟩)

/-- A slot of a page below FLASH_PAGES lies in program memory (20_memory.md R71). -/
theorem slot_within_pm {s : State} {page offset : Nat} (hpage : page < s.cfg.flashPages)
    (hoffset : offset < s.cfg.chunks) : page * s.cfg.pageSize + offset * 4 + 4 ≤ s.pmSize :=
  calc page * s.cfg.pageSize + offset * 4 + 4 ≤ (page + 1) * s.cfg.pageSize := by
        have := slot_within_page hoffset
        rw [Nat.succ_mul]
        omega
    _ ≤ s.pmSize := Nat.mul_le_mul_right _ hpage

/-- Settles O23: both bounds hold, and a page below the limit is a page of program memory (R13), so the slot exists. -/
theorem readFlashRepliesTheFourBytes : Obligations.ReadFlashRepliesTheFourBytes := by
  intro f s p0 p1 o0 o1 hcfg hpresent hacc hp hpage hoffset a ha
  obtain ⟨_, _, _, _, _, hlimit, _⟩ := hcfg
  have hend : a + 4 ≤ s.pmSize := ha ▸ slot_within_pm (hpage.trans_le hlimit) hoffset
  exact exec_of_success (i := .readFlash f) rfl hacc ((optional_present hpresent).trans
    (handleReadFlash_of_inRange (s := s.firstFrame.advance) hp hpage hoffset ha hend))

theorem handleReadFlash_of_outOfRange {f : Fields} {s : State} {p0 p1 o0 o1 : Byte}
    (hp : f.payload = [p0, p1, o0, o1])
    (hrange : s.cfg.readFlashPageLimit ≤ p0.toNat * 256 + p1.toNat ∨ s.cfg.chunks ≤ o0.toNat * 256 + o1.toNat) :
    handleReadFlash f s = raiseError .eRange f s := by
  rw [handleReadFlash, withLength_right (by rw [hp]; rfl), hp, pageOf_toNat, offsetOf_toNat, if_pos hrange]

/-- Settles O24: either bound fails, so the handler raises. -/
theorem readFlashOutOfBoundsIsRejected : Obligations.ReadFlashOutOfBoundsIsRejected :=
  fun f _ _ _ _ _ hpresent hacc hp hrange => exec_of_raiseError (i := .readFlash f) rfl hacc
    ((optional_present hpresent).trans (handleReadFlash_of_outOfRange hp hrange))

/-- Settles O26: the handler emits `eraseAll`, whose erases are the writable pages in ascending order. -/
theorem chipEraseErasesEveryWritablePage : Obligations.ChipEraseErasesEveryWritablePage := by
  intro f s hacc hpresent hempty
  refine ⟨(List.range s.cfg.maxPages.toNat).map .flashErase, ?_, by simp, fun p hp => by simp [hp]⟩
  have hexec := exec_of_emit_success (i := .chipErase f) (es := eraseAll s.cfg) (p := []) rfl hacc
    ((optional_present hpresent).trans (withLength_right (List.length_eq_zero_iff.mpr hempty)))
  rw [hexec, eraseAll, List.append_assoc]
  rfl

/-! ### EEPROM -/

/-- READ_EEPROM in bounds reads `n` bytes (R215). -/
theorem handleReadEeprom_of_inRange {f : Fields} {s : State} {a0 a1 n : Byte} (hp : f.payload = [a0, a1, n])
    (hlow : 1 ≤ n.toNat) (hhigh : n.toNat ≤ 4) (hend : a0.toNat * 256 + a1.toNat + n.toNat ≤ s.cfg.eepromSize) :
    handleReadEeprom f s = .ok (s, .success (s.ee.readBytes (a0.toNat * 256 + a1.toNat) n.toNat)) := by
  have hread : s.readEe (a0.toNat * 256 + a1.toNat) n.toNat =
      .ok (s.ee.readBytes (a0.toNat * 256 + a1.toNat) n.toNat) := if_pos hend
  rw [handleReadEeprom, withLength_right (by rw [hp]; rfl), hp, addrOf_toNat, countOf_cons, hread]
  exact if_neg (by omega)

/-- Settles O27: the count and the last byte are in bounds, so the handler reads. -/
theorem readEepromRepliesTheBytes : Obligations.ReadEepromRepliesTheBytes := by
  intro f s a0 a1 n hpresent hacc hp hlow hhigh hend
  rw [← Memory.readBytes_eq_map]
  exact exec_of_success (i := .readEeprom f) rfl hacc ((optional_present hpresent).trans
    (handleReadEeprom_of_inRange (s := s.firstFrame.advance) hp hlow hhigh hend))

theorem handleReadEeprom_of_outOfRange {f : Fields} {s : State} {a0 a1 n : Byte} (hp : f.payload = [a0, a1, n])
    (hrange : n.toNat = 0 ∨ 4 < n.toNat ∨ s.cfg.eepromSize < a0.toNat * 256 + a1.toNat + n.toNat) :
    handleReadEeprom f s = raiseError .eRange f s := by
  rw [handleReadEeprom, withLength_right (by rw [hp]; rfl), hp, addrOf_toNat, countOf_cons, if_pos (by omega)]

/-- Settles O28: one of the three bounds fails, so the handler raises. -/
theorem readEepromOutOfBoundsIsRejected : Obligations.ReadEepromOutOfBoundsIsRejected :=
  fun f _ _ _ _ hpresent hacc hp hrange => exec_of_raiseError (i := .readEeprom f) rfl hacc
    ((optional_present hpresent).trans (handleReadEeprom_of_outOfRange hp hrange))

/-- WRITE_EEPROM with a data byte: the bound on the last byte decides between the write and the raise (R218). -/
theorem handleWriteEeprom_of_data {f : Fields} {s : State} {a0 a1 d0 : Byte} {ds : List Byte}
    (hp : f.payload = a0 :: a1 :: d0 :: ds) :
    handleWriteEeprom f s =
      if s.cfg.eepromSize < a0.toNat * 256 + a1.toNat + (ds.length + 1) then raiseError .eRange f s
      else .ok (s.emit [.eepromWrite (a0.toNat * 256 + a1.toNat) (d0 :: ds)], .success []) := by
  rw [handleWriteEeprom, if_neg (by simp [hp]), hp, addrOf_toNat, dataOf_cons, List.length_cons]

/-- Settles O29: in bounds the handler emits the write and succeeds, and past them it raises. -/
theorem writeEepromEmitsTheWrite : Obligations.WriteEepromEmitsTheWrite := by
  refine fun f s a0 a1 d0 ds hpresent hacc hp => ⟨fun hend => ?_, fun hpast => ?_⟩
  · exact exec_of_emit_success (i := .writeEeprom f) rfl hacc ((optional_present hpresent).trans
      ((handleWriteEeprom_of_data hp).trans (if_neg (Nat.not_lt.mpr hend))))
  · exact exec_of_raiseError (i := .writeEeprom f) rfl hacc ((optional_present hpresent).trans
      ((handleWriteEeprom_of_data hp).trans (if_pos hpast)))

/-! ### The configuration slots -/

theorem handleSetBoardId_of_byte {f : Fields} {s : State} {v : Byte} (hp : f.payload = [v]) :
    handleSetBoardId f s = if v = s.cfg.multicastAddr then raiseError .eArg f s
      else .ok (s.emit [.cfgWrite .board v], .success []) := by
  rw [handleSetBoardId, withLength_right (by rw [hp]; rfl), hp]
  rfl

/-- Settles O30: the one byte is compared with the multicast address. -/
theorem setBoardIdIsPersistedForTheNextBoot : Obligations.SetBoardIdIsPersistedForTheNextBoot := by
  refine fun f s v hpresent hacc hp => ⟨fun hother => ?_, fun hmulticast => ?_⟩
  · exact exec_of_emit_success (i := .setBoardId f) rfl hacc ((optional_present hpresent).trans
      ((handleSetBoardId_of_byte hp).trans (if_neg hother)))
  · rw [← hp]
    exact exec_of_raiseError (i := .setBoardId f) rfl hacc ((optional_present hpresent).trans
      ((handleSetBoardId_of_byte hp).trans (if_pos hmulticast)))

theorem handleSetBitrate_of_byte {f : Fields} {s : State} {v : Byte} (hp : f.payload = [v]) :
    handleSetBitrate f s = if 8 ≤ v.toNat then raiseError .eArg f s
      else .ok (s.emit [.cfgWrite .bitrate v], .success []) := by
  rw [handleSetBitrate, withLength_right (by rw [hp]; rfl), hp]
  rfl

/-- Settles O31: the one byte is compared with the number of bit rates; absent, the request is unrecognised; present and
of another length, it is a length error. -/
theorem setBitrateIsPersistedForTheNextBoot : Obligations.SetBitrateIsPersistedForTheNextBoot := by
  refine fun f s hacc => ⟨fun v hpresent hp hlow => ?_, fun v hpresent hp hhigh => ?_, fun herror => ?_⟩
  · exact exec_of_emit_success (i := .setBitrate f) rfl hacc ((optional_present hpresent).trans
      ((handleSetBitrate_of_byte hp).trans (if_neg (Nat.not_le.mpr hlow))))
  · rw [← hp]
    exact exec_of_raiseError (i := .setBitrate f) rfl hacc ((optional_present hpresent).trans
      ((handleSetBitrate_of_byte hp).trans (if_pos hhigh)))
  · cases hpresent : s.cfg.optSetBitrate with
    | false => exact absentOptionalCommandsAreUnrecognised (.setBitrate f) s hpresent hacc
    | true =>
      have hlen : f.payload.length ≠ 1 := herror.resolve_left (by simp [hpresent])
      exact wrongLengthIsAnErrorAndNothingElse (.setBitrate f) s (decide_eq_true hlen) hpresent hacc

end Sys2Proof.Machine
end

/-! The steps (70_reset_and_hazards.md, 40_frame_validator.md R130): what the BLPSM's own step answers, and the moves of
Transport and of the power. -/
section
namespace Sys2Proof.Machine

/-! ### The frame step -/

/-- Settles O40: at POLL the step is `exec` of what the head of `rxq` decodes to. -/
theorem stepRunsTheDecodedFrame : Obligations.StepRunsTheDecodedFrame :=
  fun _ _ _ _ hrun hctl hsup hrxq hdecode => step_of_frame hrun hctl hsup hrxq hdecode

/-- Settles O41: with `rxq` empty the frame step is not enabled, whatever the supervisor's state. -/
theorem emptyReceiveQueueIsAWait : Obligations.EmptyReceiveQueueIsAWait := by
  intro s hrun hctl hrxq
  have hpoll : coreStep s.dropEvent = frameStep s.dropEvent := by simp only [coreStep, State.dropEvent_ctl, hctl]
  have hwait : frameStep s.dropEvent = .next s.dropEvent := by simp [frameStep, hrxq]
  rw [step_of_run hrun, hpoll, hwait, State.dropEvent]

/-! ### The effect step -/

/-- Retiring an effect, in the words of the statements (R300). -/
theorem retire_eq (s : State) (rest : List Effect) :
    s.retire rest = { s with fx := rest, ctl := if rest = [] then .poll else .exec } := by
  rw [State.retire, if_congr List.isEmpty_iff rfl rfl]

/-- Settles O43: a free slot in `txq` is what performing `Send` asks for. -/
theorem sendWaitsForAFreeSlot : Obligations.SendWaitsForAFreeSlot := by
  intro s c p rest hrun hctl hfx
  rw [step_of_effect hrun hctl hfx, performEffect]
  refine ⟨fun hroom => ?_, fun hfull => if_neg (Nat.not_lt.mpr hfull)⟩
  rw [State.dropEvent_txq, State.dropEvent_cfg, if_pos hroom, retire_eq]
  rfl

/-- Settles O47: the slot takes the value, the other effects have no modelled state, and each is retired. -/
theorem configurationAndSilentEffects : Obligations.ConfigurationAndSilentEffects := by
  refine fun s rest hrun hctl => ⟨fun v hfx => ?_, fun v hfx => ?_, fun hfx => ?_⟩
  · rw [step_of_effect hrun hctl hfx, performEffect, retire_eq]
    rfl
  · rw [step_of_effect hrun hctl hfx, performEffect, retire_eq]
    rfl
  · rcases hfx with hfx | hfx | hfx
    all_goals
      rw [step_of_effect hrun hctl hfx, performEffect, retire_eq]
      rfl

/-- Writing a whole page that exists, and retiring the effect. -/
theorem finishEffect_writePage {s : State} {p : Nat} {bytes : List Byte} (rest : List Effect)
    (hpage : p < s.cfg.flashPages) (hlen : bytes.length ≤ s.cfg.pageSize) :
    finishEffect (s.dropEvent.writePage p bytes) rest = .next { s with
      pm := s.pm.write (p * s.cfg.pageSize) bytes, fx := rest, ctl := if rest = [] then .poll else .exec
      events := s.events.tail } := by
  rw [State.writePage, State.dropEvent_cfg, if_pos ⟨hpage, hlen⟩, finishEffect, retire_eq]
  rfl

/-- Settles O44: the page is written with `ERASED_BYTE` throughout. -/
theorem flashEraseErasesThePage : Obligations.FlashEraseErasesThePage := by
  intro s p rest hrun hctl hfx hpage
  have hlen : (List.replicate s.cfg.pageSize s.cfg.erasedByte).length = s.cfg.pageSize := List.length_replicate
  refine ⟨s.pm.write (p * s.cfg.pageSize) (List.replicate s.cfg.pageSize s.cfg.erasedByte),
    (step_of_effect hrun hctl hfx).trans (finishEffect_writePage rest hpage hlen.le), fun a => ?_⟩
  rw [Memory.read_write, hlen, ← Nat.succ_mul]
  split
  · next hinside =>
    rw [Nat.succ_mul] at hinside
    exact List.getD_replicate _ (by omega)
  · rfl

/-- Settles O45: the page is written with the bytes given, which fill it. -/
theorem flashWriteWritesThePage : Obligations.FlashWriteWritesThePage := by
  intro s p b rest hrun hctl hfx hpage hlen
  refine ⟨_, (step_of_effect hrun hctl hfx).trans (finishEffect_writePage rest hpage hlen.le), fun j v hv => ?_,
    fun a ha => Memory.read_write_outside _ (by rwa [hlen, ← Nat.succ_mul])⟩
  obtain ⟨hj, rfl⟩ := List.getElem?_eq_some_iff.mp hv
  exact Memory.read_write_inside _ _ _ j hj

/-- Settles O46: the bytes are written where they fit. -/
theorem eepromWriteWritesTheBytes : Obligations.EepromWriteWritesTheBytes := by
  intro s a b rest hrun hctl hfx hrange
  refine ⟨s.ee.write a b, ?_, fun j v hv => ?_, fun x hx => Memory.read_write_outside _ hx⟩
  · rw [step_of_effect hrun hctl hfx, performEffect, State.writeEe, State.dropEvent_cfg, if_pos hrange, finishEffect,
      retire_eq]
    rfl
  · obtain ⟨hj, rfl⟩ := List.getElem?_eq_some_iff.mp hv
    exact Memory.read_write_inside _ _ _ j hj

/-! ### The moves of the environment -/

theorem step_of_arrive {s : State} {d : RxFrame} (h : s.nextEvent = .arrive d) :
    step s = arriveFrame d s.dropEvent := by
  simp only [step, h, stepEvent]

/-- Settles O50: a well-formed delivery decodes and is queued if there is room; another is refused by its name. -/
theorem arrivalAppendsOrIsLost : Obligations.ArrivalAppendsOrIsLost := by
  intro s d hev
  rw [step_of_arrive hev, arriveFrame]
  refine ⟨fun hwf hroom => ?_, fun hwf hfull => ?_, fun hwf => ?_⟩
  · obtain ⟨i, hi⟩ := decode_of_wf hwf
    rw [hi]
    exact congrArg _ (if_pos hroom)
  · obtain ⟨i, hi⟩ := decode_of_wf hwf
    rw [hi]
    exact congrArg _ (if_neg (Nat.not_lt.mpr hfull))
  · cases hd : decode d with
    | ok i => exact absurd (decode_ok_wf hd).1 (by simp [hwf])
    | error e => exact ⟨e, rfl⟩

theorem step_of_transmit {s : State} (h : s.nextEvent = .transmit) : step s = .next (transmitReply s.dropEvent) := by
  simp only [step, h, stepEvent]

theorem step_of_powerCycle {s : State} {drawn : List Byte} (h : s.nextEvent = .powerCycle drawn) :
    step s = .next (powerCycle drawn s.dropEvent) := by
  simp only [step, h, stepEvent]

/-- Settles O51: the move drops the head of `txq`, of which there is none when it is empty. -/
theorem transmissionTakesTheHead : Obligations.TransmissionTakesTheHead := by
  intro s hev
  rw [step_of_transmit hev, transmitReply]
  refine ⟨fun r rest htxq => ?_, fun htxq => ?_⟩
  · rw [State.dropEvent_txq, htxq]
    rfl
  · have hnone : s.txq.drop 1 = s.txq := by rw [htxq, List.drop_nil]
    rw [State.dropEvent_txq, hnone]
    rfl

/-- Settles O52: the power cycle is a reset with the memories as launch inputs, and with the drawn bytes, cut to a page,
written into an empty buffer. -/
theorem powerCycleRestoresTheResetValues : Obligations.PowerCycleRestoresTheResetValues := by
  intro s pb hev
  have hlatch : (if s.slotBoard.toNat = 255 then s.cfg.buildBoardId else s.slotBoard) =
      latchBoard s.slotBoard s.cfg.buildBoardId := by
    have hunset : s.slotBoard.toNat = 255 ↔ s.slotBoard = 0xFF := BitVec.toNat_inj (y := 0xFF)
    rw [latchBoard, if_congr hunset rfl rfl]
  refine ⟨Memory.write [] 0 (pb.take s.cfg.pageSize), ?_, Memory.within_write (Memory.within_nil _) (by simp),
    fun j b hb hj => ?_⟩
  · rw [hlatch, step_of_powerCycle hev]
    rfl
  · obtain ⟨hlt, rfl⟩ := List.getElem?_eq_some_iff.mp hb
    have hread := Memory.read_write_inside [] 0 (pb.take s.cfg.pageSize) j (by rw [List.length_take]; omega)
    rwa [Nat.zero_add, List.getElem_take] at hread

/-! ### Runs -/

theorem nextEvent_of_nil {s : State} (h : s.events = []) : s.nextEvent = .run := by rw [State.nextEvent, h]; rfl

theorem run_succ {s t : State} (n : Nat) (h : step s = .next t) : core.run (n + 1) s = core.run n t := by
  have hstep : core.step s = .next t := h
  simp only [Host.Core.run, hstep]

/-- Settles O59: the erase, the write and the re-enable are three steps, and the write comes last. -/
theorem committedPageReadsBack : Obligations.CommittedPageReadsBack := by
  intro s p b rest hctl hevents hfx hpage hlen
  have hrun : s.nextEvent = .run := nextEvent_of_nil hevents
  have hrunWrite : s.events.tail.headD .run = .run := by rw [hevents]; rfl
  have hrunEnable : s.events.tail.tail.headD .run = .run := by rw [hevents]; rfl
  obtain ⟨pm, herase, herased⟩ := flashEraseErasesThePage s p _ hrun hctl hfx hpage
  obtain ⟨pm', hwrite, hwritten, hkept⟩ := flashWriteWritesThePage
    { s with pm := pm, fx := .flashWrite p b :: .rwwEnable :: rest, ctl := .exec, events := s.events.tail }
    p b _ hrunWrite rfl rfl hpage hlen
  obtain ⟨_, _, henable⟩ := configurationAndSilentEffects
    { s with pm := pm', fx := .rwwEnable :: rest, ctl := .exec, events := s.events.tail.tail } rest hrunEnable rfl
  refine ⟨_, (run_succ 2 herase).trans ((run_succ 1 hwrite).trans (run_succ 0 (henable (.inl rfl)))), rfl, ?_,
    fun a ha => ?_⟩
  · refine List.ext_getElem (by simp [hlen]) fun j _ hj => ?_
    rw [List.getElem_map, List.getElem_range]
    exact hwritten j _ (List.getElem?_eq_getElem hj)
  · exact (hkept a ha).trans ((herased a).trans (if_neg ha))

end Sys2Proof.Machine
end

/-! The whole machine: it stops only at HALT or on a delivery that is no frame, its pending effects complete, and the
protected region keeps its bytes (60_exceptions.md section 1, 20_memory.md section 2). -/
section
namespace Sys2Proof.Machine

/-- Settles O53: the initial values meet every clause, and the reference build and launch are such ones. -/
theorem resetMeetsTheInvariant : Obligations.ResetMeetsTheInvariant :=
  ⟨fun _ _ hc hl => resetWith_inv hc hl, resetWith_inv (by decide) Launch.reference_fits⟩

/-! ### No handler and no effect stops the machine -/

/-- The handler ended with a result, not with a fault. -/
def Answers (h : Handled) : Prop := ∃ u r, h = .ok (u, r)

theorem answers_ok (u : State) (r : Result) : Answers (.ok (u, r)) := ⟨u, r, rfl⟩

theorem answers_raiseError (w : Cause) (f : Fields) (s : State) : Answers (raiseError w f s) := answers_ok _ _

/-- A check decides between two ends, neither of which is a fault. -/
theorem answers_ite {q : Prop} [Decidable q] {g h : Handled} (hg : q → Answers g) (hh : ¬ q → Answers h) :
    Answers (if q then g else h) := by
  split
  · exact hg ‹_›
  · exact hh ‹_›

theorem answers_withLength {n : Nat} {g : Handler} {f : Fields} {s : State} (hg : Answers (g f s)) :
    Answers (withLength n g f s) := answers_ite (fun _ => hg) fun _ => answers_raiseError _ f s

theorem answers_optional {b : Bool} {g : Handler} {f : Fields} {s : State} (hg : Answers (g f s)) :
    Answers (optional b g f s) := answers_ite (fun _ => hg) fun _ => answers_raiseError _ f s

theorem answers_completeGroup (s : State) : Answers (completeGroup s) :=
  answers_ite (fun _ => answers_ite (fun _ => answers_ok _ _) fun _ => answers_ok _ _) fun _ => answers_ok _ _

theorem answers_acceptChunk (c : Byte) (p : List Byte) (s : State) : Answers (acceptChunk c p s) :=
  answers_ite (fun _ => answers_completeGroup _) fun _ => answers_ok _ _

theorem answers_handleData (f : Fields) (s : State) : Answers (handleData f s) :=
  answers_ite (fun _ => answers_raiseError _ f _) fun _ =>
  answers_ite (fun _ => answers_raiseError _ f _) fun _ =>
  answers_ite (fun _ => answers_raiseError _ f _) fun _ =>
  answers_ite (fun _ => answers_acceptChunk _ _ _) fun _ =>
  answers_ite (fun _ => answers_acceptChunk _ _ _) fun _ => answers_raiseError _ f _

/-- READ_FLASH's bounds check admits only slots of program memory in a build the spec admits (R13, R205). -/
theorem answers_handleReadFlash (f : Fields) {s : State} (hcfg : s.cfg.wf) : Answers (handleReadFlash f s) := by
  obtain ⟨_, _, _, _, _, hlimit, _⟩ := hcfg
  refine answers_withLength (answers_ite (fun _ => answers_raiseError _ f s) fun hrange => ?_)
  obtain ⟨hpage, hoffset⟩ := not_or.mp hrange
  have hend := slot_within_pm ((Nat.lt_of_not_le hpage).trans_le hlimit) (Nat.lt_of_not_le hoffset)
  rw [State.readPm, slotAddress, if_pos hend]
  exact answers_ok _ _

theorem answers_handleReadEeprom (f : Fields) (s : State) : Answers (handleReadEeprom f s) := by
  refine answers_withLength (answers_ite (fun _ => answers_raiseError _ f s) fun hrange => ?_)
  rw [State.readEe, if_pos (by omega)]
  exact answers_ok _ _

/-- In a build the spec admits every handler ends with a result (R266). -/
theorem handler_answers (c : Config) (i : Instr) (f : Fields) {s : State} (hcfg : s.cfg.wf) :
    Answers (Instr.handler c i f s) := by
  cases i with
  | noOperation g => rw [Instr.handler, handleNoOperation]; exact answers_withLength (answers_ok _ _)
  | identify g => rw [Instr.handler, handleIdentify]; exact answers_withLength (answers_ok _ _)
  | startApp g => rw [Instr.handler, handleStartApp]; exact answers_withLength (answers_ok _ _)
  | setAddress g =>
    rw [Instr.handler, handleSetAddress]
    exact answers_withLength (answers_ite (fun _ => answers_raiseError _ f s) fun _ => answers_ok _ _)
  | data g => exact answers_handleData f s
  | readFlash g => exact answers_optional (answers_handleReadFlash f hcfg)
  | getFusebits g => exact answers_optional (answers_withLength (answers_ok _ _))
  | chipErase g => exact answers_optional (answers_withLength (answers_ok _ _))
  | readEeprom g => exact answers_optional (answers_handleReadEeprom f s)
  | writeEeprom g =>
    exact answers_optional (answers_ite (fun _ => answers_raiseError _ f s) fun _ =>
      answers_ite (fun _ => answers_raiseError _ f s) fun _ => answers_ok _ _)
  | setBoardId g | setBitrate g =>
    exact answers_optional (answers_withLength
      (answers_ite (fun _ => answers_raiseError _ f s) fun _ => answers_ok _ _))
  | unrecognizedRequest _ _ | ignoredKindSuccess _ _ | ignoredKindError _ _ | ignoredKindWrongNumber _ _ =>
    exact answers_raiseError _ f s

/-- In a build the spec admits every frame step answers a next state (R266). -/
theorem exec_answers (i : Instr) {s : State} (hcfg : s.cfg.wf) : ∃ t, exec i s = .next t := by
  by_cases hsees : s.Sees i.code i.fields.address
  · by_cases hkind : i.kind = 0
    · by_cases hnumber : s.Expects i.fields.number
      · obtain ⟨u, r, hu⟩ := handler_answers s.cfg i i.fields (s := s.firstFrame.advance) hcfg
        exact ⟨_, by rw [exec_accepted hkind ⟨hsees, hnumber⟩, hu]⟩
      · exact ⟨_, exec_wrongNumber hkind hsees hnumber⟩
    · exact ⟨_, exec_ignored hkind hsees⟩
  · exact ⟨_, exec_unseen hsees⟩

/-- A legal effect addresses bytes that exist, so performing it answers a next state (R266, D19). -/
theorem performEffect_answers {e : Effect} {s : State} (rest : List Effect) (hcfg : s.cfg.wf) (he : e.Legal s.cfg) :
    ∃ t, performEffect e rest s = .next t := by
  obtain ⟨_, _, _, _, hmax, hlimit, _⟩ := hcfg
  cases h : performEffect e rest s with
  | next t => exact ⟨t, rfl⟩
  | fault r =>
    rcases performEffect_fault h with ⟨p, bytes, rfl | ⟨rfl, rfl⟩, hnot⟩ | ⟨a, bytes, rfl, hnot⟩
    · obtain ⟨hpage, hlen⟩ := he
      exact absurd ⟨by omega, hlen.le⟩ hnot
    · have hpage : p < s.cfg.maxPages.toNat := he
      exact absurd ⟨by omega, List.length_replicate.le⟩ hnot
    · exact absurd he hnot
  | refused r => exact absurd h performEffect_not_refused

/-- Before HALT the BLPSM always has a step, and it answers a next state. -/
theorem coreStep_answers {s : State} (h : s.Inv) (hctl : s.ctl ≠ .halt) : ∃ t, coreStep s = .next t := by
  cases hc : s.ctl with
  | poll =>
    have hpoll : coreStep s = frameStep s := by simp only [coreStep, hc]
    rw [hpoll, frameStep, if_neg (h.pollIdle hc).2]
    cases hrxq : s.rxq with
    | nil => exact ⟨s, rfl⟩
    | cons d rest =>
      obtain ⟨i, hi⟩ := decode_of_wf (h.framesWellFormed d (by simp [hrxq]))
      simp only [hi]
      exact exec_answers i h.config
  | exec =>
    have hexec : coreStep s = effectStep s := by simp only [coreStep, hc]
    rw [hexec, effectStep]
    cases hfx : s.fx with
    | nil => exact ⟨s, rfl⟩
    | cons e rest => exact performEffect_answers rest h.config (h.effectsLegal e (by simp [hfx]))
  | halt => exact absurd hc hctl

/-- What a step can answer from the invariant: a next state, the fault at HALT, or the refusal of an arriving delivery
that is no frame. -/
theorem step_answers {s : State} (h : s.Inv) :
    (∃ t, step s = .next t) ∨
    (s.nextEvent = .run ∧ s.ctl = .halt ∧ step s = .fault .halted) ∨
    (∃ d e, s.nextEvent = .arrive d ∧ d.wf = false ∧ step s = .refused (.malformedFrame e)) := by
  cases hev : s.nextEvent with
  | run =>
    by_cases hctl : s.ctl = .halt
    · exact .inr (.inl ⟨rfl, hctl, haltHasNoStep s hev hctl⟩)
    · have hdrop : s.dropEvent.Inv := { h with }
      rw [step_of_run hev]
      exact .inl (coreStep_answers hdrop hctl)
  | expire => exact .inl ⟨_, step_of_expire hev⟩
  | arrive d =>
    obtain ⟨hroom, hlost, hmalformed⟩ := arrivalAppendsOrIsLost s d hev
    cases hwf : d.wf with
    | true =>
      rcases Nat.lt_or_ge s.rxq.length s.cfg.rxDepth with hlt | hge
      · exact .inl ⟨_, hroom hwf hlt⟩
      · exact .inl ⟨_, hlost hwf hge⟩
    | false =>
      obtain ⟨e, he⟩ := hmalformed hwf
      exact .inr (.inr ⟨d, e, rfl, hwf, he⟩)
  | transmit => exact .inl ⟨_, step_of_transmit hev⟩
  | powerCycle drawn => exact .inl ⟨_, step_of_powerCycle hev⟩

/-- Settles O55, by what a step can answer. -/
theorem nothingIsFatalDuringOperation : Obligations.NothingIsFatalDuringOperation := by
  intro s h
  rcases step_answers h with ⟨t, ht⟩ | ⟨hrun, hctl, hfault⟩ | ⟨d, e, hev, hwf, hrefused⟩
  · rw [ht]
    exact ⟨nofun, nofun⟩
  · rw [hfault]
    exact ⟨fun e he => ⟨by cases he; rfl, hctl, hrun⟩, nofun⟩
  · rw [hrefused]
    exact ⟨nofun, fun r hr => ⟨d, e, hev, hwf, by cases hr; rfl⟩⟩

/-! ### The protected region -/

/-- From `s` to `t` the build stays, and so does every byte of program memory from `MAX_PAGES * PAGE_SIZE` up (R74). -/
def KeepsProtected (s t : State) : Prop :=
  t.cfg = s.cfg ∧ ∀ a, s.cfg.maxPages.toNat * s.cfg.pageSize ≤ a → t.pm.read a = s.pm.read a

theorem keepsProtected_of_pm {s t : State} (hcfg : t.cfg = s.cfg) (hpm : t.pm = s.pm) : KeepsProtected s t :=
  ⟨hcfg, fun a _ => by rw [hpm]⟩

theorem KeepsProtected.trans {s t u : State} (h : KeepsProtected s t) (h' : KeepsProtected t u) :
    KeepsProtected s u := by
  obtain ⟨hcfg, hpm⟩ := h
  obtain ⟨hcfg', hpm'⟩ := h'
  rw [hcfg] at hcfg' hpm'
  exact ⟨hcfg', fun a ha => (hpm' a ha).trans (hpm a ha)⟩

/-- A write of at most a page to a writable page ends below the protected region. -/
theorem read_write_protected {c : Config} (m : Memory) {p a : Nat} {bytes : List Byte} (hpage : p < c.maxPages.toNat)
    (hlen : bytes.length ≤ c.pageSize) (ha : c.maxPages.toNat * c.pageSize ≤ a) :
    (m.write (p * c.pageSize) bytes).read a = m.read a := by
  have hend : (p + 1) * c.pageSize ≤ c.maxPages.toNat * c.pageSize := Nat.mul_le_mul_right _ hpage
  rw [Nat.succ_mul] at hend
  exact Memory.read_write_outside m (by omega)

@[simp] theorem State.writeCfg_cfg (s : State) (slot : CfgSlot) (v : Byte) : (s.writeCfg slot v).cfg = s.cfg := by
  cases slot <;> rfl

@[simp] theorem State.writeCfg_pm (s : State) (slot : CfgSlot) (v : Byte) : (s.writeCfg slot v).pm = s.pm := by
  cases slot <;> rfl

/-- Performing a legal effect keeps the protected region: flash effects are of writable pages (R45, R75). -/
theorem performEffect_keepsProtected {e : Effect} {rest : List Effect} {s t : State} (he : e.Legal s.cfg)
    (h : performEffect e rest s = .next t) : KeepsProtected s t := by
  rcases performEffect_next h with ⟨rfl, _⟩ | ⟨_, _, _, _, rfl⟩ | ⟨p, bytes, hflash, _, hlen, rfl⟩ |
    ⟨_, _, _, _, rfl⟩ | ⟨slot, v, _, rfl⟩ | ⟨_, rfl⟩ | ⟨_, rfl⟩
  · exact keepsProtected_of_pm rfl rfl
  · exact keepsProtected_of_pm rfl rfl
  · have hpage : p < s.cfg.maxPages.toNat := by
      rcases hflash with rfl | ⟨rfl, _⟩
      · exact he.1
      · exact he
    exact ⟨rfl, fun a ha => read_write_protected s.pm hpage hlen ha⟩
  · exact keepsProtected_of_pm rfl rfl
  · exact keepsProtected_of_pm (by simp) (by simp)
  · exact keepsProtected_of_pm rfl rfl
  · exact keepsProtected_of_pm rfl rfl

/-- Every move keeps the protected region: a frame step writes no memory, and the pending effects are legal. -/
theorem step_keepsProtected {s t : State} (h : s.Inv) (hstep : step s = .next t) : KeepsProtected s t := by
  cases step_moves hstep with
  | waits => exact keepsProtected_of_pm rfl rfl
  | takesFrame d rest i hrun hctl hsup hrxq hdecode hexec =>
    obtain ⟨hpm, _, _, _, _, _, hcfg, _⟩ := exec_frame hexec
    exact keepsProtected_of_pm hcfg hpm
  | performs e rest hrun hctl hfx hperform =>
    exact performEffect_keepsProtected (s := s.dropEvent) (h.effectsLegal e (by simp [hfx])) hperform
  | expires => exact keepsProtected_of_pm rfl rfl
  | arrives => exact keepsProtected_of_pm rfl rfl
  | transmits => exact keepsProtected_of_pm rfl rfl
  | cycles => exact keepsProtected_of_pm rfl rfl

/-- A run of one step more is a step and a run. -/
theorem exists_step_of_run_succ {s t : State} {n : Nat} (h : core.run (n + 1) s = .next t) :
    ∃ u, step s = .next u ∧ core.run n u = .next t := by
  simp only [Host.Core.run] at h
  split at h
  · next u hstep => exact ⟨u, hstep, h⟩
  · cases h
  · cases h

/-- Settles O57, by induction over the steps: each keeps the invariant and the protected region. -/
theorem protectedRegionNeverChanges : Obligations.ProtectedRegionNeverChanges := by
  have hruns (n : Nat) : ∀ s t : State, s.Inv → core.run n s = .next t → KeepsProtected s t := by
    induction n with
    | zero =>
      intro s t _ hrun
      cases hrun
      exact keepsProtected_of_pm rfl rfl
    | succ n ih =>
      intro s t h hrun
      obtain ⟨u, hstep, hrest⟩ := exists_step_of_run_succ hrun
      exact (step_keepsProtected h hstep).trans (ih u t (everyStepKeepsTheInvariant s u h hstep) hrest)
  exact fun n s t h hrun => (hruns n s t h hrun).2

/-! ### The pending effects complete -/

/-- The replies queued in `txq`, as the effects that sent them. -/
def State.replies (s : State) : List Effect := s.txq.map fun r => .send r.command r.payload

/-- From `s` to `t` the effects `es` were performed: their replies were queued in order, and no frame was taken and no
Session register written (R300, R47). -/
structure State.Performed (s : State) (es : List Effect) (t : State) : Prop where
  keeps : t = { s with
    sup := t.sup, ctl := t.ctl, fx := t.fx, txq := t.txq, pm := t.pm, ee := t.ee, slotBoard := t.slotBoard
    slotBitrate := t.slotBitrate, events := t.events }
  events : t.events = s.events.tail
  replies : t.replies = s.replies ++ es.filter Effect.isSend

theorem State.Performed.trans {s t u : State} {es es' : List Effect} (hevents : s.events = []) (h : s.Performed es t)
    (h' : t.Performed es' u) : s.Performed (es ++ es') u where
  keeps := h'.keeps.trans (by rw [h.keeps])
  events := by rw [h'.events, h.events, hevents]; rfl
  replies := by rw [h'.replies, h.replies, List.filter_append, List.append_assoc]

/-- There is a free slot in `txq` for each reply among `es` (R301). -/
def State.HasRoomFor (s : State) (es : List Effect) : Prop :=
  s.txq.length + (es.filter Effect.isSend).length ≤ s.cfg.txSlots

theorem hasRoomFor_head {s : State} {e : Effect} {es : List Effect} (h : s.HasRoomFor (e :: es)) :
    s.HasRoomFor [e] := by
  rw [State.HasRoomFor, ← List.singleton_append, List.filter_append, List.length_append] at h
  exact (Nat.add_le_add_left (Nat.le_add_right _ _) _).trans h

/-- Once an effect is performed there is still room for the replies behind it. -/
theorem State.Performed.hasRoomFor {s t : State} {es es' : List Effect} (h : s.Performed es t)
    (hroom : s.HasRoomFor (es ++ es')) : t.HasRoomFor es' := by
  have hcfg : t.cfg = s.cfg := by rw [h.keeps]
  have hlength := congrArg List.length h.replies
  simp only [State.replies, List.length_map, List.length_append] at hlength
  rw [State.HasRoomFor, List.filter_append, List.length_append] at hroom
  rw [State.HasRoomFor, hcfg, hlength, Nat.add_assoc]
  exact hroom

/-- Retiring an effect that is no reply and not Jump, after what it did to the memories and the slots. -/
theorem retire_performed {s u : State} {e : Effect} (rest : List Effect) (hsend : e.isSend = false) (hjump : e ≠ .jump)
    (hu : u = { s.dropEvent with pm := u.pm, ee := u.ee, slotBoard := u.slotBoard, slotBitrate := u.slotBitrate }) :
    s.Performed [e] (u.retire rest) ∧ (u.retire rest).fx = rest ∧
      (u.retire rest).ctl = if e = .jump then .halt else if rest = [] then .poll else .exec := by
  rw [if_neg hjump, retire_eq, hu]
  exact ⟨⟨rfl, rfl, by simp [State.replies, hsend]⟩, rfl, rfl⟩

/-- Performing an effect, with room for it if it is a reply: it is retired, and only Jump halts (R300–R303). -/
theorem performed_of_performEffect {e : Effect} {rest : List Effect} {s t : State} (hroom : s.HasRoomFor [e])
    (h : performEffect e rest s.dropEvent = .next t) :
    s.Performed [e] t ∧ t.fx = rest ∧ t.ctl = if e = .jump then .halt else if rest = [] then .poll else .exec := by
  rcases performEffect_next h with ⟨_, ⟨c, p, rfl⟩, hfull⟩ | ⟨c, p, rfl, _, rfl⟩ | ⟨p, bytes, hflash, _, _, rfl⟩ |
    ⟨a, bytes, rfl, _, rfl⟩ | ⟨slot, v, rfl, rfl⟩ | ⟨hsilent, rfl⟩ | ⟨rfl, rfl⟩
  · exact absurd hroom (Nat.not_le.mpr (Nat.lt_succ_of_le hfull))
  · rw [if_neg nofun, retire_eq]
    exact ⟨⟨rfl, rfl, List.map_append⟩, rfl, rfl⟩
  · rcases hflash with rfl | ⟨rfl, _⟩ <;> exact retire_performed rest rfl nofun rfl
  · exact retire_performed rest rfl nofun rfl
  · cases slot <;> exact retire_performed rest rfl nofun rfl
  · rcases hsilent with rfl | rfl | rfl <;> exact retire_performed rest rfl nofun rfl
  · exact ⟨⟨rfl, rfl, by simp [State.replies, Effect.isSend]⟩, rfl, rfl⟩

/-- At EXEC, with the BLPSM to move and room for the head of `fx`, the step performs it (R300, D19). -/
theorem step_performs {s : State} {e : Effect} {rest : List Effect} (h : s.Inv) (hctl : s.ctl = .exec)
    (hevents : s.events = []) (hfx : s.fx = e :: rest) (hroom : s.HasRoomFor [e]) :
    ∃ t, step s = .next t ∧ s.Performed [e] t ∧ t.fx = rest ∧
      t.ctl = if e = .jump then .halt else if rest = [] then .poll else .exec := by
  obtain ⟨t, ht⟩ := performEffect_answers (s := s.dropEvent) rest h.config (h.effectsLegal e (by simp [hfx]))
  exact ⟨t, (step_of_effect (nextEvent_of_nil hevents) hctl hfx).trans ht, performed_of_performEffect hroom ht⟩

/-- All pending effects are performed, one a step (R84, D2). -/
theorem run_performs {s : State} {e : Effect} {rest : List Effect} (h : s.Inv) (hctl : s.ctl = .exec)
    (hevents : s.events = []) (hfx : s.fx = e :: rest) (hroom : s.HasRoomFor (e :: rest)) :
    ∃ t, core.run (rest.length + 1) s = .next t ∧ s.Performed (e :: rest) t ∧ t.fx = [] ∧
      t.ctl = if (e :: rest).getLast? = some .jump then .halt else .poll := by
  induction rest generalizing s e with
  | nil =>
    obtain ⟨t, hstep, hperformed, htfx, htctl⟩ := step_performs h hctl hevents hfx hroom
    refine ⟨t, run_succ 0 hstep, hperformed, htfx, ?_⟩
    simpa using htctl
  | cons e' rest ih =>
    have hjump : e ≠ .jump := h.jumpIsLast e (by simp [hfx])
    obtain ⟨u, hstep, hperformed, hufx, huctl⟩ := step_performs h hctl hevents hfx (hasRoomFor_head hroom)
    rw [if_neg hjump, if_neg nofun] at huctl
    obtain ⟨t, hrun, hrest, htfx, htctl⟩ := ih (everyStepKeepsTheInvariant s u h hstep) huctl
      (by rw [hperformed.events, hevents]; rfl) hufx (hperformed.hasRoomFor hroom)
    refine ⟨t, (run_succ _ hstep).trans hrun, hperformed.trans hevents hrest, htfx, ?_⟩
    rw [List.getLast?_cons_cons, htctl]

/-- Settles O58: at EXEC something is pending, and `run_performs` performs it. -/
theorem pendingEffectsCompleteInOrder : Obligations.PendingEffectsCompleteInOrder := by
  intro s h hctl hevents hroom
  obtain ⟨e, rest, hfx⟩ := List.exists_cons_of_ne_nil (h.execBusy hctl)
  rw [hfx] at hroom ⊢
  obtain ⟨t, hrun, ⟨hkeeps, _, hreplies⟩, htfx, htctl⟩ := run_performs h hctl hevents hfx hroom
  refine ⟨t, hrun, htfx, htctl, hreplies, ?_⟩
  rw [hkeeps]
  exact ⟨rfl, rfl, rfl, rfl, rfl, rfl, rfl, rfl⟩

end Sys2Proof.Machine
end
